-- ==== Sys2Proof/Word.lean ====
section
/-! DEFINITION. The word types of the module and the plainest arithmetic on them. -/

namespace Sys2Proof

/-- One byte, the unit of every byte-addressed memory of the module. -/
abbrev Byte := BitVec 8

/-- One 32-bit word: a scalar register, an instruction word (R161), a CS_ register (R108). -/
abbrev Word := BitVec 32

/-- A run of bytes, lowest address first. -/
abbrev Bytes := List Byte

end Sys2Proof
end

