-- ==== Sys2Proof/Wire.lean ====
section
/-! DEFINITION. The plain data that commands carry in from outside: codewords and slots, fabric messages,
WSP frames, register accesses, physical observations and test findings. -/

namespace Sys2Proof.Machine

/-- The state of one 16-byte 144/128 codeword (R510): good, holding a correctable or an uncorrectable
error, or carrying the poison syndrome (R101). -/
inductive Cw where
  | clean
  | correctable
  | uncorrectable
  | poison
deriving DecidableEq, Repr

/-- A 32-byte slot with its two codewords (R241): `lo` covers bytes 0-15, `hi` bytes 16-31. -/
structure Slot where
  data : BitVec 256
  lo : Cw
  hi : Cw
deriving DecidableEq, Repr

/-- A fabric message (R241, R242): the header fields and the payload slots.  `opw` is header bytes 16-31.  At a leaf of a group `cls` is
the class that the leaf's entry gives the copy, and `hdr` the class that the header still names (R261, R262). -/
structure Msg where
  typ : Nat
  vc : Nat
  forme : Nat
  len : Nat
  dkind : Nat
  dest : Nat
  galley : Nat
  cls : Nat
  sx : Nat
  sy : Nat
  sport : Nat
  tag : Nat
  count : Nat
  hops : Nat
  wp : Option (Nat × Nat)
  opw : BitVec 128
  hdr : Option Nat
  slots : List Slot
deriving DecidableEq, Repr

/-- A storage upset found by a step: memory `mem` in the coding of R534, codeword `ix` in it, `bad` when the
error is uncorrectable. -/
structure Upset where
  mem : Nat
  ix : Nat
  bad : Bool
deriving DecidableEq, Repr

/-- What the checking hardware observes physically during one step (R510): storage upsets, a residue
mismatch (R155, R156), the checker lane that differs (R158), and a control-path parity error (R511). -/
structure Obs where
  upsets : List Upset
  residue : Bool
  checker : Option Nat
  parity : Bool
deriving DecidableEq, Repr

/-- What a router observes as a message header reaches it (R246, R247): a header parity error, and the
codeword errors found in the payload, as (slot, high half, uncorrectable). -/
structure LinkObs where
  headerParity : Bool
  flips : List (Nat × Bool × Bool)
  parity : Bool
deriving DecidableEq, Repr

/-- A unit by kind and number, in the coding of R531 and R532. -/
structure UnitRef where
  kind : Nat
  n : Nat
deriving DecidableEq, Repr

/-- A WSP frame (R355): header fields, the 20 body bytes as one little-endian number, and the payload. -/
structure Frame where
  ver : Nat
  typ : Nat
  cls : Nat
  sh : Bool
  psn : Bool
  last : Bool
  frsv : Nat
  seq : Nat
  ack : Nat
  nslots : Nat
  session : Nat
  req : Nat
  body : BitVec 160
  slots : List Slot
deriving DecidableEq, Repr

/-- A frame as the port sends it (R354): addresses, EtherType, length from the destination through the FCS with the pad, and the WSP frame. -/
structure TxWire where
  dst : Nat
  src : Nat
  ethertype : Nat
  bytes : Nat
  frame : Frame
deriving DecidableEq, Repr

/-- A frame as the receiving MAC sees it (R348), with the FEC codewords corrected and found uncorrectable as it came in (R383). -/
structure RxFrame where
  fecCorr : Nat
  fecUncorr : Nat
  ethertype : Nat
  vlan : Bool
  bytes : Nat
  fcsOk : Bool
  dst : Nat
  src : Nat
  frame : Frame
deriving DecidableEq, Repr

/-- A store of the host to host memory; `poison` when the line's data carries CXL poison (R390). -/
structure HostStore where
  addr : Nat
  data : Bytes
  poison : Bool
deriving DecidableEq, Repr

/-- A BAR0 access of the host, a read or a write (R392). -/
structure Bar0 where
  read : Bool
  bay : Nat
  off : Nat
  size : Nat
  value : Nat
deriving DecidableEq, Repr

/-- What a field governor measures in one evaluation (R474): the rail power in watts and, for each cluster,
its two sensors in units of 0.0625 degrees. -/
structure FieldMeas where
  power : Nat
  temps : List (Nat × Int × Int)
deriving DecidableEq, Repr

/-- What the module governor measures (R471): input power in units of 10 W and the power that each present
field asks for. -/
structure PowerMeas where
  input : Nat
  asks : List (Nat × Nat)
deriving DecidableEq, Repr

/-- The finding of the core-store test for one cluster (R494): its lowest passing offset in 5 mV steps, its
ladder cap, the cores that fail at 800 MHz, and whether the final pass failed. -/
structure ClusterTest where
  cluster : Nat
  lowest : Int
  cap : Nat
  deadCores : List Nat
  finalFail : Bool
deriving DecidableEq, Repr

/-- The finding of link discovery (R496): links as (core, direction, correctable, uncorrectable)
detections, clusters whose wake-wire segment failed, and an edge failure. -/
structure LinkTest where
  links : List (Nat × Nat × Nat × Nat)
  segments : List Nat
  edgeFail : Bool
deriving DecidableEq, Repr

/-- A UDP datagram that reaches the management port (R539). -/
structure Datagram where
  src : Nat
  bytes : Bytes
deriving DecidableEq, Repr

/-- A receiver of the reference (R457): 0 the pin, 1 a repeater, 2 a cluster input. -/
structure RefInput where
  kind : Nat
  cluster : Nat
  input : Nat
deriving DecidableEq, Repr

end Sys2Proof.Machine
end

