-- ==== Sys2Proof/Syntax.lean ====
section
/-! DEFINITION. The commands of the block: one constructor per row of the table of steps.

Unit numbers: a core is its number in the CS_ID layout (x in bits [8:0], y in bits [17:9], R109); a cluster is
cx in bits [6:0] and cy in bits [13:7] (R532); a ring is 0-74, with 72 the event ring, 73 the report ring and
74 the proof ring (R402).  A core-instruction command makes the named core execute the instruction at its issue
index; a ring command makes the named ring start its oldest fetched entry. -/

namespace Sys2Proof

open Sys2Proof.Machine

/-- The commands, one per row. -/
inductive Instr where
  /-- NOP (R172): The issue unit executes the no-operation instruction. -/
  | nop (c : Nat) (o : Obs)
  /-- END (R172): Stops issue for the running block, which then proceeds toward commit. -/
  | endBlock (c : Nat) (o : Obs)
  /-- FENCE (R172): Enters all three queues; each queue holds until all three reach it and earlier core-store writes complete. -/
  | fence (c : Nat) (o : Obs)
  /-- QARR (R172): Sets the quoin arrival tree of the running block for this firing. -/
  | qarr (c : Nat) (o : Obs)
  /-- BR (R171): Continues issue at the target index. -/
  | br (c : Nat) (o : Obs)
  /-- DBNZ (R171): Decrements a scalar register and branches when the result is nonzero. -/
  | dbnz (c : Nat) (o : Obs)
  /-- PLOG (R170): Performs the predicate logic operation that fn selects. -/
  | plog (c : Nat) (o : Obs)
  /-- SALU (R170): Performs the scalar register operation that fn selects. -/
  | salu (c : Nat) (o : Obs)
  /-- ADDI (R169): Adds a sign-extended immediate to a scalar register. -/
  | addi (c : Nat) (o : Obs)
  /-- ANDI (R169): ANDs a scalar register with a zero-extended immediate. -/
  | andi (c : Nat) (o : Obs)
  /-- ORI (R169): ORs a scalar register with a zero-extended immediate. -/
  | ori (c : Nat) (o : Obs)
  /-- XORI (R169): XORs a scalar register with a zero-extended immediate. -/
  | xori (c : Nat) (o : Obs)
  /-- SHI (R169): Shifts a scalar register by an immediate amount. -/
  | shi (c : Nat) (o : Obs)
  /-- MOVL (R169): Writes a zero-extended 16-bit immediate to a scalar register. -/
  | movl (c : Nat) (o : Obs)
  /-- MOVH (R169): Writes the upper 16 bits of a scalar register. -/
  | movh (c : Nat) (o : Obs)
  /-- CMP (R170): Writes a predicate from a comparison of two scalar registers. -/
  | cmp (c : Nat) (o : Obs)
  /-- CMPI (R169): Writes a predicate from a comparison of a scalar register with an immediate. -/
  | cmpi (c : Nat) (o : Obs)
  /-- LDW (R174): Loads a 32-bit word from core store into a scalar register. -/
  | ldw (c : Nat) (o : Obs)
  /-- STW (R174): Stores a scalar register to core store as a read-modify-write. -/
  | stw (c : Nat) (o : Obs)
  /-- VLD (R174): Loads 64 bytes from core store into a vector register. -/
  | vld (c : Nat) (o : Obs)
  /-- VST (R174): Stores a vector register to core store. -/
  | vst (c : Nat) (o : Obs)
  /-- CSR (R173): Reads a CS_ register atomically into a scalar register. -/
  | csr (c : Nat) (o : Obs)
  /-- CSW (R173): Writes a CS_ register under its access codes. -/
  | csw (c : Nat) (o : Obs)
  /-- SCFG (R183): Reconfigures a steering unit after clearing EN and waiting for the item in progress. -/
  | scfg (c : Nat) (o : Obs)
  /-- BEN (R173): Sets or clears the enable bit of one block. -/
  | ben (c : Nat) (o : Obs)
  /-- VADD (R176): Adds two vector registers lane by lane. -/
  | vadd (c : Nat) (o : Obs)
  /-- VSUB (R176): Subtracts two vector registers lane by lane. -/
  | vsub (c : Nat) (o : Obs)
  /-- VMUL (R176): Multiplies two vector registers lane by lane. -/
  | vmul (c : Nat) (o : Obs)
  /-- VFMA (R176): Fused multiply-add or multiply-subtract into the destination vector with one rounding. -/
  | vfma (c : Nat) (o : Obs)
  /-- VMIN (R177): Lane minimum of two vector registers. -/
  | vmin (c : Nat) (o : Obs)
  /-- VMAX (R177): Lane maximum of two vector registers. -/
  | vmax (c : Nat) (o : Obs)
  /-- VUN (R176): Applies MOV, ABS or NEG to each lane's representation. -/
  | vun (c : Nat) (o : Obs)
  /-- VBCAST (R179): Copies a scalar register to every lane or half-lane. -/
  | vbcast (c : Nat) (o : Obs)
  /-- VEXT (R179): Writes one vector lane to a scalar register. -/
  | vext (c : Nat) (o : Obs)
  /-- VROW (R179): Copies lanes under the fixed row pattern of the drain layout. -/
  | vrow (c : Nat) (o : Obs)
  /-- VSHUF (R179): Copies lanes under a pattern held in a vector register. -/
  | vshuf (c : Nat) (o : Obs)
  /-- VINT (R170): Performs the integer lane operation that fn selects. -/
  | vint (c : Nat) (o : Obs)
  /-- VCMP (R178): Writes a lane mask from a comparison condition. -/
  | vcmp (c : Nat) (o : Obs)
  /-- VSEL (R169): Selects bits between two vectors under a mask. -/
  | vsel (c : Nat) (o : Obs)
  /-- VSUM (R180): Exact-sum reduction of consecutive vector registers per lane. -/
  | vsum (c : Nat) (o : Obs)
  /-- VCVT (R181): Converts 32 elements between formats. -/
  | vcvt (c : Nat) (o : Obs)
  /-- VTR (R182): Applies a transcendental function to 16 FP32 lanes. -/
  | vtr (c : Nat) (o : Obs)
  /-- PROD (R189): Runs a product on a slice into an accumulator bank under the pass plan. -/
  | prod (c : Nat) (o : Obs)
  /-- PCLR (R190): Clears an accumulator bank, with or without a window preset. -/
  | pclr (c : Nat) (o : Obs)
  /-- DRAIN (R191): Converts an accumulator bank into vector registers and snapshots the slice counters. -/
  | drain (c : Nat) (o : Obs)
  /-- LSTAT (R192): Writes row statistics of an accumulator bank to a vector register. -/
  | lstat (c : Nat) (o : Obs)
  /-- LDOT (R192): Writes row dot products of an accumulator bank with a vector tile. -/
  | ldot (c : Nat) (o : Obs)
  /-- TCLAIM (R193): Claims a transposing-buffer half for a slice. -/
  | tclaim (c : Nat) (o : Obs)
  /-- TWRV (R193): Writes a transposing-buffer row from a vector register. -/
  | twrv (c : Nat) (o : Obs)
  /-- TWRM (R193): Writes a transposing-buffer row from core store. -/
  | twrm (c : Nat) (o : Obs)
  /-- TREL (R193): Releases a transposing-buffer half to EMPTY. -/
  | trel (c : Nat) (o : Obs)
  /-- CHOPEN (R194): Starts an open on a send port by sending CONNECT, or refuses it locally. -/
  | chopen (c : Nat) (o : Obs)
  /-- CHLISTEN (R195): Sets a galley listening with a key. -/
  | chlisten (c : Nat) (o : Obs)
  /-- CHCLOSE (R195): Closes a port at commit or stops a galley listening and closes its channels. -/
  | chclose (c : Nat) (o : Obs)
  /-- SENDV (R196): Stages a message from vector registers on a port. -/
  | sendv (c : Nat) (o : Obs)
  /-- SENDM (R196): Stages a message from core store on a port. -/
  | sendm (c : Nat) (o : Obs)
  /-- GRDV (R198): Reads 64 bytes of a galley head into a vector register. -/
  | grdv (c : Nat) (o : Obs)
  /-- GRDS (R198): Reads a 32-bit word of a galley head into a scalar register. -/
  | grds (c : Nat) (o : Obs)
  /-- GCOPY (R198): Copies a galley head item to core store. -/
  | gcopy (c : Nat) (o : Obs)
  /-- READINESS_EVALUATION (R59): An awake core evaluates block readiness once per ic. -/
  | readinessEvaluation (c : Nat) (o : Obs)
  /-- BLOCK_COMMIT (R62): Once commit conditions and the residue check pass, releases items, sends staged messages and signals quoin arrival. -/
  | blockCommit (c : Nat) (o : Obs)
  /-- REPLAY (R98): 32 ic after a mismatch the core restores the snapshot and reissues the block's first instruction. -/
  | replayBlock (c : Nat)
  /-- SUSPECT_WINDOW_EXPIRY (R517): A suspect window expiring with no further mismatch returns the count to 0. -/
  | suspectWindowExpiry (k : Nat)
  /-- STEER_FORWARD (R90): A steering unit forwards a data item whole to its selected port when token, item and credit allow. -/
  | steerForward (c : Nat) (u : Nat) (o : Obs)
  /-- ROUTE (R249): A router handles a received message header: hop count, waypoint, replication, merge, detour or absorption. -/
  | route (c : Nat) (p : Nat) (v : Nat) (o : LinkObs)
  /-- ROUTER_FORWARD (R239): A router forwards a message on an output once it has credit for the whole message. -/
  | routerForward (c : Nat) (d : Nat) (v : Nat)
  /-- LINK_SCORE_WINDOW_END (R248): A router's 2^28-ic scoring window ends and a new one begins. -/
  | linkScoreWindowEnd (c : Nat)
  /-- REDUCE_FORWARD (R264): A held reduce message is forwarded when all inputs have arrived or its hold timer expires. -/
  | reduceForward (c : Nat) (n : Nat) (expired : Bool)
  /-- GALLEY_WRITE (R212): An ejected message is written into its galley class once all its slots are free. -/
  | galleyWrite (c : Nat) (v : Nat)
  /-- CONNECT (R204): A CONNECT reaching its target core is checked and answered with ACCEPT or REFUSE. -/
  | connectMsg (u : UnitRef)
  /-- ACCEPT (R200): An ACCEPT opens a PENDING port with its grant, or a stray one is answered with CLOSE. -/
  | acceptMsg (c : Nat)
  /-- REFUSE (R200): A REFUSE returns a PENDING port to IDLE and sets its refusal flag. -/
  | refuseMsg (c : Nat)
  /-- CLOSE (R229): A CLOSE closes a sender port or removes a channel from a galley. -/
  | closeMsg (c : Nat)
  /-- CREDIT (R230): A CREDIT message returns slots to an OPEN send port. -/
  | creditMsg (c : Nat)
  /-- COMBINING_ADD (R224): A contribution is added into a combining galley entry, possibly releasing it. -/
  | combiningAdd (c : Nat) (g : Nat) (o : Obs)
  /-- SPILL_CREDIT_GRANT (R226): A spill-extended galley grants spill credit of one message to its channel. -/
  | spillCreditGrant (c : Nat) (g : Nat)
  /-- SPILL_REFILL (R227): An item moves back from the spill extension into the class buffer. -/
  | spillRefill (c : Nat) (g : Nat)
  /-- QUOIN_RELEASE (R271): A wake-wire tree meets its release condition and wakes its waiting members. -/
  | quoinRelease (f : Nat) (t : Nat)
  /-- DEADLOCK (R301): Every present cluster votes all-blocked for 2^12 keeper ic and the forme faults with DEADLOCK. -/
  | deadlock (f : Nat)
  /-- PATIENCE_EXPIRY (R301): The patience count reaches its limit and the forme faults with TIMEOUT. -/
  | patienceExpiry (f : Nat)
  /-- CORE_LOST (R521): A core is declared dead by the alive or power monitor; links block, a dead site is appended and the forme faults. -/
  | coreLost (c : Nat) (power : Bool)
  /-- FORME_DRAIN_DONE (R282): The draining steps of RESET_FORME or CLOSE_FORME finish and the command completes. -/
  | formeDrainDone (f : Nat)
  /-- LOAD_LEADING (R433): Loads a leading plan for clusters to take at their next OPEN_FORME. -/
  | loadLeading (r : Nat)
  /-- SET_CLOCKS (R466): Sets an island, station, port, setup bus or management processor clock. -/
  | setClocks (r : Nat)
  /-- CLOCK_CHANGE (R470): A set edge clock changes within 100 µs after SET_CLOCKS completes. -/
  | clockChange (n : Nat)
  /-- OPEN_FORME (R277): Claims a rectangle, resets its cores, fixes the absence view and computes shifts and detours. -/
  | openForme (r : Nat)
  /-- CLOSE_FORME (R282): Drains the forme and returns it to EMPTY, removing windows, bindings and contexts. -/
  | closeForme (r : Nat)
  /-- RESET_FORME (R282): Drains the forme and returns it to OPEN. -/
  | resetForme (r : Nat)
  /-- RESET_CLUSTER (R506): Resets the 16 cores of one cluster. -/
  | resetCluster (r : Nat)
  /-- RESET_CORE (R505): Resets one core, closing its channels, and leaves it EMPTY. -/
  | resetCore (r : Nat)
  /-- OPEN_WINDOW (R287): Replaces one window record of a forme. -/
  | openWindow (r : Nat)
  /-- BIND_FEEDER (R365): Binds a feeder port to a forme with a session and contributor. -/
  | bindFeeder (r : Nat)
  /-- UNBIND_FEEDER (R366): BIND_FEEDER with the unbind flag removes a port's binding. -/
  | unbindFeeder (r : Nat)
  /-- SET_STEREO (R367): Gives a forme its stereo entries for GRAD_ACCUM copies. -/
  | setStereo (r : Nat)
  /-- QUERY (R439): Writes the records chosen by the selector to host memory. -/
  | query (r : Nat)
  /-- ATTEST (R572): Snapshots the device state and writes a signed colophon. -/
  | attest (r : Nat)
  /-- START_TEST (R503): Runs a core-store, near-tier or link test on fields in no forme. -/
  | startTest (r : Nat)
  /-- HELLBOX_EXPORT (R41): Writes the signed hellbox additions part to host memory. -/
  | hellboxExport (r : Nat)
  /-- NOP_COMMAND (R433): A ring command with no effect. -/
  | nopCommand (r : Nat)
  /-- LOAD_IMPOSITION (R296): Checks and loads an imposition image into the forme. -/
  | loadImposition (r : Nat)
  /-- LOAD_TENSOR (R319): Copies host memory into the near tier in parts. -/
  | loadTensor (r : Nat)
  /-- READ_TENSOR (R319): Copies near-tier data to host memory in parts. -/
  | readTensor (r : Nat)
  /-- STREAM_LAYER (R371): Streams weights from feeders into the forme, one READ_REQ per part. -/
  | streamLayer (r : Nat)
  /-- RUN (R297): Sets block enables, clears tree arrivals and starts the forme running. -/
  | run (r : Nat)
  /-- WAIT_QUOIN (R300): Completes when a tree's release counter reaches the target. -/
  | waitQuoin (r : Nat)
  /-- ACCUMULATE_OUT (R376): Sends gradients to feeders or accumulates host data into the near tier, in parts. -/
  | accumulateOut (r : Nat)
  /-- UPDATE (R331): Runs update recipes in stations, one per part. -/
  | updateCommand (r : Nat)
  /-- CONTEXT_ALLOC (R337): Allocates a context table entry for a region. -/
  | contextAlloc (r : Nat)
  /-- CONTEXT_FREE (R338): Frees a context table entry. -/
  | contextFree (r : Nat)
  /-- RESEND_PARTS (R437): Reissues failed parts of an earlier PARTIAL command. -/
  | resendParts (r : Nat)
  /-- FENCE_COMMAND (R426): Completes when earlier entries of its ring and named rings have completed. -/
  | fenceCommand (r : Nat)
  /-- MARK (R443): Writes mark records to the event ring, management stream and proof ring. -/
  | mark (r : Nat)
  /-- PART_COMPLETION (R321): One part of a split command completes; the command completes when all parts have. -/
  | partCompletion (r : Nat) (sq : Nat) (part : Nat) (stores : List HostStore)
  /-- DOORBELL_SNOOP (R416): A host store to a doorbell line wakes the ring engine, which fetches new entries. -/
  | doorbellSnoop (r : Nat) (stores : List HostStore)
  /-- CONSUMER_LINE_SNOOP (R389): A host store to an event, report or proof consumer line frees ring space. -/
  | consumerLineSnoop (r : Nat) (stores : List HostStore)
  /-- EVENT_RECORD_WRITE (R452): A posted record is written to the event ring when room exists. -/
  | eventRecordWrite
  /-- REPORT_RECORD_WRITE (R451): A closed report record is written to the report ring when space allows, with furniture if needed. -/
  | reportRecordWrite
  /-- PROOF_RECORD_WRITE (R546): A closed proof record is written to the proof ring when space allows. -/
  | proofRecordWrite
  /-- STATION_READ (R315): A station reads data slots and returns them with a status slot. -/
  | stationRead (n : Nat) (o : Obs)
  /-- STATION_WRITE (R315): A station writes data slots into its memory. -/
  | stationWrite (n : Nat) (o : Obs)
  /-- GATHER (R315): A station gathers indexed elements and returns them. -/
  | gather (n : Nat) (o : Obs)
  /-- SCATTER (R315): A station writes elements at indexed addresses. -/
  | scatter (n : Nat) (o : Obs)
  /-- ACCUM (R327): A station adds contributions into memory once per idempotency key. -/
  | accum (n : Nat) (o : Obs)
  /-- CONVERT (R330): A station converts elements between formats. -/
  | convert (n : Nat) (o : Obs)
  /-- STATION_UPDATE (R334): A station runs an update recipe over its streams. -/
  | stationUpdate (n : Nat) (o : Obs)
  /-- CTX_ALLOC (R337): A station allocates the lowest FREE context entry. -/
  | ctxAlloc (n : Nat) (o : Obs)
  /-- CTX_RESOLVE (R338): A station returns the region and state of a context handle. -/
  | ctxResolve (n : Nat) (o : Obs)
  /-- CTX_FREE (R338): A station frees a context entry and increments its generation. -/
  | ctxFree (n : Nat) (o : Obs)
  /-- FLUSH (R328): A station writes back covered combining lines to DRAM. -/
  | flush (n : Nat) (o : Obs)
  /-- ORDERED_REPLAY_APPLY (R345): Held contributions are applied in list order once their predecessors have been applied. -/
  | orderedReplayApply (n : Nat)
  /-- PATROL_SCRUB (R341): A station scrubs each codeword once per 2^36 sc. -/
  | patrolScrub (n : Nat) (o : Obs)
  /-- SELF_REFRESH_ENTRY (R342): A dark field's station DRAM enters self-refresh after 512 sc without access. -/
  | selfRefreshEntry (n : Nat)
  /-- ACCUM_ORDER_RECORD_CLOSE (R552): An open accumulate-order record closes 2^16 sc after its first entry. -/
  | accumOrderRecordClose (n : Nat) (bucket : Nat) (st : Nat)
  /-- PORT_READ (R369): A feeder port sends a core's READ as a READ_REQ. -/
  | portRead (p : Nat)
  /-- PORT_WRITE (R374): A feeder port appends a core's WRITE to a WRITE frame. -/
  | portWrite (p : Nat)
  /-- GRAD (R374): A feeder port appends a core's gradient to a GRAD_ACCUM frame. -/
  | gradOp (p : Nat)
  /-- FRAME_CLOSE_TIMEOUT (R374): An open WRITE or GRAD_ACCUM frame closes 256 port clock cycles after it opened. -/
  | frameCloseTimeout (p : Nat) (g : Bool)
  /-- FRAME_TRANSMIT (R363): A closed sequenced frame is sent once reserved or shared credit covers it. -/
  | frameTransmit (p : Nat)
  /-- WEIGHT_DATA (R373): A received WEIGHT_DATA frame is checked and cut into fabric messages. -/
  | weightData (p : Nat) (f : RxFrame)
  /-- READ_RSP (R370): A received READ_RSP returns data to the requesting core. -/
  | readRsp (p : Nat) (f : RxFrame)
  /-- SYNC (R377): A received SYNC with RELEASE releases the external tree 1 ic later. -/
  | sync (p : Nat) (f : RxFrame)
  /-- CANCEL (R379): A received CANCEL acknowledges, aborts or refuses transactions. -/
  | cancel (p : Nat) (f : RxFrame)
  /-- WSP_CREDIT (R364): A received CREDIT frame updates the sender's credit totals. -/
  | wspCredit (p : Nat) (f : RxFrame)
  /-- ACK (R361): A received ACK frees retry-buffer space and may make acknowledgements final. -/
  | ack (p : Nat) (f : RxFrame)
  /-- NAK (R360): A received NAK starts retransmission from nseq. -/
  | nak (p : Nat) (f : RxFrame)
  /-- HELLO (R352): A received HELLO brings the link UP, resuming or resetting WSP state by epoch. -/
  | hello (p : Nat) (f : RxFrame)
  /-- POISON_NOTICE (R380): A received POISON_NOTICE is counted and posts UNCORRECTED. -/
  | poisonNotice (p : Nat) (f : RxFrame)
  /-- HELLO_TIMER (R352): In HELLO state the port sends a HELLO every 2^20 port clock cycles. -/
  | helloTimer (p : Nat)
  /-- ACK_TIMER (R359): A receiver owing an acknowledgement for 512 port cycles sends a standalone ACK. -/
  | ackTimer (p : Nat)
  /-- RETRANSMIT_TIMEOUT (R360): An unacknowledged frame after 65,536 port cycles is retransmitted; eight in a row enter LOST. -/
  | retransmitTimeout (p : Nat)
  /-- CREDIT_REPEAT (R364): A receiver sends CREDIT after a total change and repeats it every 2^16 port cycles. -/
  | creditRepeat (p : Nat)
  /-- HOLD_EXPIRY (R353): The LOST hold expires, failing transfers and resetting WSP state. -/
  | holdExpiry (p : Nat)
  /-- TRAINING_TIMEOUT (R351): Training without alignment for 2^28 mc is restarted. -/
  | trainingTimeout (p : Nat)
  /-- PCS_ALIGNED (R351): PCS alignment moves the port from TRAINING to HELLO. -/
  | pcsAligned (p : Nat)
  /-- PCS_ALIGNMENT_LOST (R351): Loss of PCS alignment moves an UP port to LOST. -/
  | pcsAlignmentLost (p : Nat)
  /-- MODULE_INSERT (R349): The feeder manager accepts or refuses an inserted pluggable module. -/
  | moduleInsert (p : Nat) (taui8 : Bool) (watts : Nat)
  /-- MODULE_REMOVE (R590): Removal of a pluggable module takes its port OFF. -/
  | moduleRemove (p : Nat)
  /-- HOST_READ (R447): A host bay reads host memory for a core. -/
  | hostRead (b : Nat) (stores : List HostStore)
  /-- HOST_WRITE (R448): A host bay writes core data to host memory. -/
  | hostWrite (b : Nat)
  /-- REPORT (R450): A host bay appends a REPORT payload to an assembly and closes it on MORE = 0. -/
  | reportOp (b : Nat)
  /-- HOST_LINK_DOWN (R391): A bay's link goes down; its rings hold and host accesses fail. -/
  | hostLinkDown (b : Nat)
  /-- HOST_LINK_RETRAIN (R391): A bay's link retrains and held traffic resumes. -/
  | hostLinkRetrain (b : Nat) (width : Nat)
  /-- HELPER_CLK_EN_WRITE (R397): A write to HELPER_CLK_EN clocks or stops helpers, locking bit 9 once set. -/
  | helperClkEnWrite (a : Bar0)
  /-- MAILBOX_BOOT_WRITE (R401): Completing MAILBOX_BOOT in AWAIT_HOST starts the boot from the bundle. -/
  | mailboxBootWrite (a : Bar0) (stores : List HostStore)
  /-- RING_ENABLE (R403): Setting a ring's EN starts the ring or is refused with a reason. -/
  | ringEnable (a : Bar0)
  /-- RING_DISABLE (R403): Clearing a ring's EN enters STOPPING until started commands complete. -/
  | ringDisable (a : Bar0)
  /-- RING_IRQ_WRITE (R453): A write to RING_IRQ resets the moderation counter and sets the count. -/
  | ringIrqWrite (a : Bar0)
  /-- CONTAINMENT_DEFAULT_WRITE (R405): Sets the containment mode taken by later formes and work of no forme. -/
  | containmentDefaultWrite (a : Bar0)
  /-- POWER_CAP_WRITE (R406): Sets the module input power cap when legal. -/
  | powerCapWrite (a : Bar0)
  /-- STATUS_RESET_WRITE (R408): Writing the key to STATUS_RESET performs a device reset. -/
  | statusResetWrite (a : Bar0)
  /-- W1C_FLAG_WRITE (R11): Writing ones to a W1C flag register clears those flags. -/
  | w1cFlagWrite (a : Bar0)
  /-- REGISTER_WRITE (R9): A write to a register without behaviour of its own replaces its field. -/
  | registerWrite (a : Bar0)
  /-- FIELD_GOVERNOR_EVALUATION (R474): Every 2^16 mc a field governor sets thermal and power steps and activity allowances. -/
  | fieldGovernorEvaluation (f : Nat) (m : FieldMeas)
  /-- PENDING_DARK_LIMIT (R482): The 256-evaluation waiting limit passes and a pending-dark field goes dark at once. -/
  | pendingDarkLimit (f : Nat)
  /-- MODULE_GOVERNOR_UPDATE (R471): At each POWER_INPUT update the module governor sets field budgets against the cap. -/
  | moduleGovernorUpdate (m : PowerMeas)
  /-- SOFT_START_INTERVAL (R477): Each 32-ic interval after a release raises the cluster's allowance by one eighth. -/
  | softStartInterval (k : Nat)
  /-- DROOP_TRIP (R478): A droop monitor trip stretches the field's island clocks. -/
  | droopTrip (f : Nat)
  /-- DROOP_END (R478): After 64 ic within limit the clock stretch ends. -/
  | droopEnd (f : Nat)
  /-- CLOCK_SLEW_STEP (R461): A cluster loop slews one ladder step per µs toward its target. -/
  | clockSlewStep (k : Nat)
  /-- INPUT_QUALIFIED (R457): A reference input qualifies after 1,024 cycles of adequate swing. -/
  | inputQualified (v : RefInput)
  /-- INPUT_LOST_QUALIFICATION (R458): A reference input loses qualification; the cluster switches inputs or coasts. -/
  | inputLostQualification (v : RefInput)
  /-- LOOP_LOCK (R464): A loop locks to a qualified input, ending coasting or starting the island clock. -/
  | loopLock (k : Nat)
  /-- LOOP_LOCK_LOSS (R516): A cluster loop loses lock while its input is qualified; it coasts and counts a mismatch. -/
  | loopLockLoss (k : Nat)
  /-- STATION_CLOCK_FLOOR (R469): When a cluster coasts, adjoining station clocks fall to 1.6 GHz and later are restored. -/
  | stationClockFloor (n : Nat)
  /-- AGEING_MEASUREMENT (R522): Every 2^34 mc the device measures ageing monitors and re-plans if needed. -/
  | ageingMeasurement (ms : List (Nat × Nat))
  /-- CORRECTED_WINDOW_END (R535): At a window end the error collector posts the count of further corrections. -/
  | correctedWindowEnd (u : UnitRef) (mem : Nat)
  /-- CHECKPOINT (R542): A checkpoint record is posted after 256 records or 2^34 mc, and signing starts. -/
  | checkpoint (ram : List Nat := [])
  /-- SIGNATURE_COMPLETE (R575): The SLH-DSA assist finishes a signature and the next queued operation starts. -/
  | signatureComplete
  /-- ANNOUNCE_TIMER (R540): The management port sends ANNOUNCE every 2^32 mc and at link-up. -/
  | announceTimer
  /-- SUBSCRIBE (R540): A SUBSCRIBE datagram makes or renews a subscriber. -/
  | subscribe (d : Datagram)
  /-- SUBSCRIPTION_EXPIRY (R540): A subscriber is dropped 2^36 mc after its last SUBSCRIBE. -/
  | subscriptionExpiry (src : Nat)
  /-- RESEND (R540): A RESEND datagram is answered with held records in range. -/
  | resend (d : Datagram)
  /-- MANAGEMENT_PORT_UP (R543): When the management port carries traffic, held records are sent in seq order. -/
  | managementPortUp
  /-- DEVICE_RESET (R507): A device reset turns off compute and near tier and re-enters BOOT_ROM. -/
  | deviceReset (ram : Option Nat := none)
  /-- RESET_DEVICE_CONTAINMENT (R515): After the UNCORRECTED record is sent or 2^20 mc pass, the device resets. -/
  | resetDeviceContainment
  /-- POWER_GOOD (R580): Standby rails reach regulation and PWR_OK asserts. -/
  | powerGood
  /-- BOOT_ROM_START (R491): The management processor starts from ROM and enters AWAIT_HOST. -/
  | bootRomStart (rom : Option Bool := none)
  /-- IDENTITY_DERIVATION (R569): The PUF unit derives the identity key and the identity is compared. -/
  | identityDerivation (k : BitVec 256) (selfTest : Bool) (stores : List HostStore)
  /-- FIELD_POWER_WAVE (R492): Each 30 ms a wave powers the core rails of one field row. -/
  | fieldPowerWave
  /-- RAIL_REGULATION_TIMEOUT (R492): A rail not in regulation 10 ms after ramp start ends bring-up in FAILED. -/
  | railRegulationTimeout (f : Nat)
  /-- CORE_STORE_TEST_DONE (R494): The core-store test finishes and produces the leading plan and dead sites. -/
  | coreStoreTestDone (ts : List ClusterTest)
  /-- NEAR_TIER_TEST_DONE (R495): The near-tier test finishes with repairs and retired granules. -/
  | nearTierTestDone (gs : List Nat)
  /-- LINK_DISCOVERY_DONE (R496): Link discovery finishes with dead links and retired clusters. -/
  | linkDiscoveryDone (t : LinkTest)
  /-- READINESS_GATE (R499): The device compares topologies, writes the gate report and enters READY or DEGRADED. -/
  | readinessGate
  /-- TRIP_WAIT_EXPIRY (R485): 60 s after a module trip the field power-up waves may begin. -/
  | tripWaitExpiry
  /-- INPUT_RISE (R578): Input held above 44.0 V for 100 ms starts the standby converter. -/
  | inputRise
  /-- INPUT_OUT_OF_RANGE (R578): Input out of range for 1 ms turns off core rails and enters FAILED. -/
  | inputOutOfRange
  /-- INPUT_RETURN (R578): Input back in range for 1 s allows field waves after a reset. -/
  | inputReturn
  /-- INPUT_LOST (R578): Input below 40.0 V for 2 ms leaves the module unpowered. -/
  | inputLost
  /-- CLIP_PAIR_LOST (R579): Loss of one clip pair limits the module to 6.0 kW. -/
  | clipPairLost (p : Nat)
  /-- CLIP_PAIR_RETURN (R579): A returning clip pair restores POWER_CAP. -/
  | clipPairReturn (p : Nat)
  /-- RESET_L_ASSERT (R585): RESET_L low for at least 100 µs performs a module reset. -/
  | resetLAssert (us : Nat) (taken : Bool)
  /-- RESET_L_RELEASE (R585): 1 ms after RESET_L release the bays train and the device enters BOOT_ROM. -/
  | resetLRelease
  /-- MANAGEMENT_PORT_DOWN (R543): The 1000BASE-T management port loses its link, and the management processor holds records unsent until the port carries traffic again. -/
  | managementPortDown
  /-- ROUTER_ADVERTISEMENT (R537): A router advertisement of a prefix reaching the management port makes it add a global IPv6 address by stateless autoconfiguration. -/
  | routerAdvertisement (pfx : Nat)
deriving DecidableEq, Repr

end Sys2Proof
end

