-- ==== Sys2Proof/Config.lean ====
section
/-! DEFINITION. What the manual leaves open, as constants without a body, and the numbers that every module shares. -/

namespace Sys2Proof

/-! ### Free values: nothing in Lean can see what they are -/

/-- The value of free draw number `n`: clock counts, budgets and every other unstated number (log 1, DESIGN CHOICE). -/
opaque Config.freeNat : Nat → Nat

/-- The byte of host memory at an address the host has never stored to (log 2, DESIGN CHOICE). -/
opaque Config.hostByte : Nat → Byte

/-- The transcendental approximator's result bits (R150), a fixed function of function code and input (log 3, DESIGN CHOICE). -/
opaque Config.approx : Nat → Word → Word

/-- The outcome of verifying an SLH-DSA-SHA2-128s signature: public key, message, signature (R563; log 15, DESIGN CHOICE). -/
opaque Config.vendorVerify : Bytes → Bytes → Bytes → Bool

/-- The outcome of verifying an SLH-DSA-SHA2-128f signature: public key, message, signature (R34; log 15, DESIGN CHOICE). -/
opaque Config.identityVerify : Bytes → Bytes → Bytes → Bool

/-- The SLH-DSA-SHA2-128f public key that a PUF value gives (R569): byte `n` of 32 (log 15, DESIGN CHOICE). -/
opaque Config.slhPublicByte : BitVec 256 → Nat → Byte

/-- Byte `n` of the SLH-DSA-SHA2-128f signature of a message under a PUF value's key (R571; log 15, DESIGN CHOICE). -/
opaque Config.slhSignByte : BitVec 256 → Bytes → Nat → Byte

/-- The detour entries of one core that the device's method, which the manual leaves open, tries for a view of absence over a rectangle
(R252): the rectangle's clusters, the absent cores, the blocked links, the core (log 16, DESIGN CHOICE). -/
opaque Config.detours : Nat × Nat × Nat × Nat → List Nat → List (Nat × Nat) → Nat → List (BitVec 64)

/-! ### Completion codes (R428) -/

abbrev Config.ok : Nat := 0x00
abbrev Config.partialCode : Nat := 0x01
abbrev Config.badState : Nat := 0x02
abbrev Config.badArg : Nat := 0x03
abbrev Config.absent : Nat := 0x04
abbrev Config.skipped : Nat := 0x05
abbrev Config.faultCode : Nat := 0x06
abbrev Config.poisonCode : Nat := 0x07
abbrev Config.thermal : Nat := 0x08
abbrev Config.linkDown : Nat := 0x09
abbrev Config.timeout : Nat := 0x0A
abbrev Config.deadlock : Nat := 0x0B
abbrev Config.deniedCode : Nat := 0x0C
abbrev Config.aborted : Nat := 0x0D
abbrev Config.sigFail : Nat := 0x0E
abbrev Config.noSpace : Nat := 0x0F
abbrev Config.closedCode : Nat := 0x10

/-! ### Fault and event classes (R431) -/

abbrev Config.clsCorrected : Nat := 0x01
abbrev Config.clsUncorrected : Nat := 0x02
abbrev Config.clsPoison : Nat := 0x03
abbrev Config.clsResidue : Nat := 0x04
abbrev Config.clsChecker : Nat := 0x05
abbrev Config.clsLinkDetect : Nat := 0x06
abbrev Config.clsRefLost : Nat := 0x07
abbrev Config.clsThermalWarn : Nat := 0x08
abbrev Config.clsThrottle : Nat := 0x09
abbrev Config.clsFieldDark : Nat := 0x0A
abbrev Config.clsCoreLost : Nat := 0x0B
abbrev Config.clsDeadlock : Nat := 0x0C
abbrev Config.clsWatchdog : Nat := 0x0D
abbrev Config.clsAgeing : Nat := 0x0E
abbrev Config.clsHellboxAdd : Nat := 0x0F
abbrev Config.clsPowerCap : Nat := 0x10
abbrev Config.clsFeederLink : Nat := 0x11
abbrev Config.clsHostLink : Nat := 0x12

/-! ### Sizes -/

/-- Bytes of an SLH-DSA-SHA2-128s signature (R34, R563). -/
abbrev Config.vendorSigLen : Nat := 7856

/-- Bytes of an SLH-DSA-SHA2-128f signature (R34). -/
abbrev Config.identitySigLen : Nat := 17088

/-- Records that the management processor and the event ring's hold keep (R452, R543). -/
abbrev Config.heldRecords : Nat := 4096

/-- The 64-byte units of a port's shared receive pool: 1,536 KiB (R362, R363). -/
abbrev Config.poolUnits : Nat := 24576

end Sys2Proof
end

