-- ==== Sys2Proof/Machine/State.lean ====
section
/-! DEFINITION. Everything the specification gives the module, as plain data, and the module after a module reset. -/

namespace Sys2Proof.Machine

/-- A sparse table: keys strictly rising, no entry equal to the table's default value. -/
abbrev Map (α : Type) := List (Nat × α)

/-- A byte memory: addresses strictly rising. -/
abbrev Mem := List Host.Cell

/-! ### One core (R55) -/

/-- The state field of CS_STATE (R112). -/
inductive CoreSt where
  | empty | sleep | run | commit | quoin | replay | stopped
deriving DecidableEq, Repr

/-- A vector register, or one row of the transposing buffer: 16 lanes of 32 bits, one poison mark a lane (R101). -/
structure VReg where
  bits : BitVec 512
  poison : BitVec 16
deriving DecidableEq, Repr

/-- One accumulator element (R137).  `cls`: 0 finite, 1 +infinity, 2 -infinity, 3 NaN.  `adds` counts the
additions since the last check of R156. -/
structure Acc where
  a : Int
  w : Int
  set : Bool
  cls : Nat
  sticky : Bool
  rres : Nat
  poison : Bool
  adds : Nat
deriving DecidableEq, Repr

/-- The state word of a transposing-buffer half (R81, R121); `written` has a bit for each row written. -/
structure HalfCtl where
  state : Nat
  owner : Nat
  width : Nat
  rows : Nat
  written : Nat
deriving DecidableEq, Repr

/-- A transposing-buffer half: its state word and its 32 rows (R80). -/
structure Half where
  ctl : HalfCtl
  data : Map VReg
deriving DecidableEq, Repr

/-- The snapshot of R97. -/
structure Snapshot where
  s : Map Word
  p : Map Bool
  v : Map VReg
  acc : Map Acc
  rng : Word
  h0 : HalfCtl
  h1 : HalfCtl
deriving DecidableEq, Repr

/-- A block table entry (R56). -/
structure Block where
  start : Nat
  inputs : Nat
  sends : Nat
  prio : Nat
  replay : Bool
  initEn : Bool
  quoin : Option Nat
deriving DecidableEq, Repr

/-- A complete item of a galley (R212): the message and the class slot index of its first slot. -/
structure Item where
  msg : Msg
  pos : Nat
deriving DecidableEq, Repr

/-- An accepted channel of a galley (R207, R209): sender core, sender port, class, message size, lenient bit,
virtual channel and grant. -/
structure Chan where
  src : Nat
  port : Nat
  cls : Nat
  size : Nat
  lenient : Bool
  vc : Nat
  grant : Nat
deriving DecidableEq, Repr

/-- A pending entry of a combining galley (R220): key, contribution total, sum with the class slot index where it stands, and the
creating message. -/
structure Entry where
  key : Nat
  total : Nat
  slots : List Slot
  pos : Nat
  owner : Msg
deriving DecidableEq, Repr

/-- A galley (R210-R228): its CS_ registers, its channels, class pointers and items, the combining entries and
contributions in transit to the adder, the spill extension and the spill debt; `shut` names the channels (core, port, class)
that the reader has closed, whose later messages are absorbed (R229).  An item of `ext` has the extension slot of its first slot,
and its slots stand in the core store (R227): the list keeps their number alone. -/
structure Galley where
  cfg : Word
  geo : Word
  lst : Word
  spl : Word
  chans : List Chan
  shut : List (Nat × Nat × Nat)
  wp : Map Nat
  rp : Map Nat
  items : List Item
  contribs : List Item
  entries : List Entry
  ext : List Item
  debt : Nat
deriving DecidableEq, Repr

/-- A send port (R200, R236).  `state`: 0 IDLE, 1 PENDING, 2 OPEN, 3 CLOSED.  `reserved` and `staged` belong to the
running block (R60, R61), and `sent` when that block has executed a send on the port (R196); `lost` when the port became CLOSED
after the block had staged its message (R73). -/
structure Port where
  cfg : Word
  state : Nat
  reason : Nat
  lenient : Bool
  size : Nat
  galley : Nat
  target : Nat
  credit : Nat
  disc : Nat
  reserved : Nat
  staged : Option Msg
  sent : Bool
  lost : Bool
deriving DecidableEq, Repr

/-- A steering unit (R88, R120): its configuration, the held token with its galley, and that token's remaining run and selection. -/
structure Steer where
  cfg : Word
  run : Nat
  sel : Nat
  tok : Option (Nat × Item)
deriving DecidableEq, Repr

/-- A core-store write not yet ordered by a fence or a commit (R74): its queue (0 scalar, 1 vector, 2 product), the bytes it
writes, the codeword's value under that mask, and the state that a write of the whole codeword gives it. -/
structure UWrite where
  queue : Nat
  mask : Nat
  value : Nat
  st : Cw
deriving DecidableEq, Repr

/-- A codeword with unordered writes (R74): what it holds before them, and the writes in the order in which they apply. -/
structure Unfenced where
  cw : Nat
  base : Nat
  baseCw : Cw
  writes : List UWrite
deriving DecidableEq, Repr

/-- One core.  `nc` holds CS_ 0x100-0x1FF, `sc` CS_ 0x200-0x2FF; `counted` is the number of its forme's runs that the counters of
`sc` have taken in (R559, R560). -/
structure Core where
  st : CoreSt
  block : Nat
  pc : Nat
  ended : Bool
  gated : Bool
  fails : Nat
  replayed : Bool
  mismChk : Bool
  forme : Nat
  mapGen : Nat
  rank : Nat
  trees : Nat
  extGalleys : Nat
  tree : Nat
  heads : List (Nat × Item)
  nextBlock : Map Nat
  firingQuoin : Option Nat
  banks : List Nat
  closing : List Nat
  releasing : List Nat
  istore : Map Word
  iecc : Map Cw
  blocks : Map Block
  en0 : Word
  en1 : Word
  s : Map Word
  p : Map Bool
  v : Map VReg
  acc : Map Acc
  store : Mem
  ecc : Map Cw
  unfenced : List Unfenced
  spill : List (Nat × Nat)
  h0 : Half
  h1 : Half
  galleys : Map Galley
  ports : Map Port
  steers : Map Steer
  rng : Word
  scratch : Map Word
  sliceMode : Word
  flags : Word
  flagsCnt : Word
  chan : Word
  chanCnt : Word
  fault : Word
  faultInfo : Word
  nc : Map Nat
  sc : Map Nat
  counted : Nat
  latch : Map Word
  snap : Option Snapshot
deriving DecidableEq, Repr

/-! ### The fabric (R237-R268) -/

/-- A message in a router's input buffer; once routed, the outputs that still want a copy
(bits 0 N, 1 E, 2 S, 3 W, 4 local, 5 the attachment beyond an exit core). -/
structure RBuf where
  msg : Msg
  routed : Bool
  outs : Nat
deriving DecidableEq, Repr

/-- A message held for merging (R264): the reduce entry, and the inputs that have arrived. -/
structure Held where
  entry : Nat
  msg : Msg
  arrived : Nat
deriving DecidableEq, Repr

/-- A router: input buffers, the messages that stand outside a full one at a send port or an attachment (R237), and ejection queues, by
port and virtual channel; output rotation, merge buffer, tables, link scores, and the counters of R268. -/
structure Router where
  inq : Map (List RBuf)
  wait : Map (List Msg)
  ejq : Map (List Msg)
  rot : Map Nat
  held : List Held
  detour : List (BitVec 64)
  mcast : List (BitVec 64)
  reduce : List (BitVec 64)
  score : Map Nat
  winCorr : Map Nat
  winUncorr : Map Nat
  scoreIgnored : Nat
  corr : Map Nat
  uncorr : Map Nat
  hpar : Map Nat
  chaseDrop : Nat
  absorbed : Nat
  hopDrop : Nat
  typeDrop : Nat
  merged : Nat
  bypass : Nat
  detoured : Nat
  groupMiss : Nat
deriving DecidableEq, Repr

/-! ### Clusters and fields -/

/-- One cluster: its forme (R255), its island clock (R459-R465), its suspect window (R517), soft start (R477),
sensors (R479) and ageing index (R523). -/
structure Cluster where
  forme : Option Nat
  ladder : Nat
  formeStep : Nat
  thermStep : Nat
  powerStep : Nat
  cap : Nat
  voff : Int
  qual0 : Bool
  qual1 : Bool
  second : Bool
  locked : Bool
  coasting : Bool
  refLost : Bool
  lostBy : Nat
  mismatches : Nat
  winOpen : Bool
  retired : Bool
  soft : Nat
  grant : Nat
  temp0 : Int
  temp1 : Int
  ageing : Int
deriving DecidableEq, Repr

/-- One field: power and thermal state (R471-R485) and its station clock setting (R466). -/
structure Field where
  powered : Bool
  dark : Bool
  pendingDark : Bool
  hotEvals : Nat
  waitEvals : Nat
  coolEvals : Nat
  warned : Bool
  throttled : Bool
  stretched : Bool
  budget : Nat
  power : Nat
  stc : Nat
  testing : Nat
deriving DecidableEq, Repr

/-! ### Formes (R276-R308) -/

/-- A window record (R283). -/
structure Window where
  base : Nat
  limit : Nat
  rights : Nat
deriving DecidableEq, Repr

/-- A wake-wire tree of a forme (R270, R294): kind, external mark, SYNC port, the members that have arrived
since the last release in order of arrival, and the epoch of an outstanding SYNC (R377). -/
structure Tree where
  isOr : Bool
  external : Bool
  port : Nat
  arrived : List Nat
  sync : Option Nat
  releases : Nat
deriving DecidableEq, Repr

/-- A stereo entry (R367). -/
structure Stereo where
  first : Nat
  last : Nat
  contributor : Nat
  copy : Nat
deriving DecidableEq, Repr

/-- One forme.  `state` is coded as in R430: 0 EMPTY, 1 OPEN, 2 LOADED, 3 RUNNING, 4 PAUSED, 5 FAULTED, 6 DRAINING.
`viewHb` and `viewFields` fix its view of absence (R49): the hellbox entries and fields it counts; `runs` is how often it has
entered RUNNING (R560), `waited` its patience count as far as it is known (R301). -/
structure Forme where
  state : Nat
  resets : Bool
  status : Nat
  faultClass : Nat
  faultCore : Option Nat
  faultCode : Nat
  mapGen : Nat
  viewHb : Nat
  viewFields : Nat
  cx0 : Nat
  cy0 : Nat
  cx1 : Nat
  cy1 : Nat
  clockStep : Nat
  keeper : Nat
  patience : Nat
  watch : Nat
  halt : Option Nat
  layer : Option Nat
  suspect : Nat
  censusAddr : Nat
  censusCap : Nat
  halting : Bool
  closing : Bool
  runs : Nat
  waited : Nat
  near : Map Window
  host : Map Window
  trees : Map Tree
  stereo : List Stereo
deriving DecidableEq, Repr

/-! ### Memory stations (R309-R346) -/

/-- A line of the combining area (R328). -/
structure CombLine where
  line : Nat
  fmt : Nat
  slot : Slot
deriving DecidableEq, Repr

/-- An idempotency key (R327). -/
structure IdemKey where
  bucket : Nat
  step : Nat
  contributor : Nat
deriving DecidableEq, Repr

/-- A status slot's contents (R316). -/
structure Status where
  code : Nat
  flags : Nat
  v1 : Nat
  v2 : Nat
  v3 : Nat
deriving DecidableEq, Repr

/-- A response in the order of its channel (R318): the request, and, once it is known, its data and status. -/
structure Answer where
  msg : Msg
  body : Option (List Slot × Status)
deriving DecidableEq, Repr

/-- A context table entry (R335); `cw` is the state of its codewords (R340). -/
structure Ctx where
  base : Nat
  length : Nat
  generation : Nat
  writer : Option Nat
  forme : Nat
  live : Bool
  cw : Cw
deriving DecidableEq, Repr

/-- One entry of an order list, and of an accumulate-order record (R552, R556). -/
structure OrderEntry where
  bucket : Nat
  step : Nat
  len : Nat
  offset : Nat
  dup : Bool
  contributor : Nat
deriving DecidableEq, Repr

/-- Ordered replay at a station (R345, R556): the forme, the bucket range and what is left of the list. -/
structure Replay where
  forme : Nat
  first : Nat
  last : Nat
  list : List OrderEntry
deriving DecidableEq, Repr

/-- An open accumulate-order record (R552). -/
structure OrderRec where
  bucket : Nat
  step : Nat
  first : Nat
  cont : Bool
  entries : List OrderEntry
deriving DecidableEq, Repr

/-! ### Feeder ports (R347-R384) -/

/-- Where the answer to a core request goes (R313): core, port, galley, class, tag, forme, the request's descriptor
and its virtual channel. -/
structure Reply where
  core : Nat
  sport : Nat
  galley : Nat
  cls : Nat
  tag : Nat
  forme : Nat
  opw : BitVec 128
  vc : Nat
deriving DecidableEq, Repr

/-- A split part's identity: ring, submission index and part number (R320). -/
structure PartRef where
  ring : Nat
  sq : Nat
  part : Nat
deriving DecidableEq, Repr

/-- A contribution to apply at a station: who sent it, its key and its data, and who waits for the answer. -/
structure Contrib where
  forme : Nat
  bucket : Nat
  step : Nat
  contributor : Nat
  writer : Nat
  fmt : Nat
  offset : Nat
  slots : List Slot
  reply : Option Reply
  part : Option PartRef
deriving DecidableEq, Repr

/-- One memory station.  `mem` covers the near tier and the addressable buffer, by offset (R311); `replayNext` is a
descriptor that takes effect when the held contributions have been applied (R562); `outside` the host's requests that wait for room in
the VC1 queue (R309, R319), and `answers` the responses that wait for an earlier one of their channel (R318). -/
structure Station where
  q0 : List Msg
  q1 : List Msg
  outside : List Msg
  answers : List Answer
  mem : Mem
  ecc : Map Cw
  comb : List CombLine
  idem : List IdemKey
  ctx : Map Ctx
  replay : Option Replay
  replayNext : Option (Option Replay)
  heldContribs : List Contrib
  orders : List OrderRec
  selfRefresh : Bool
  clockLow : Bool
  granules : List Nat
  dup : Nat
  nospace : Nat
  denied : Nat
  unlisted : Nat
  combined : Nat
  evictions : Nat
  corrected : Nat
  uncorrected : Nat
deriving DecidableEq, Repr

/-- A WSP transaction of the port.  `kind`: 0 core READ, 1 stream part, 2 WRITE frame, 3 GRAD_ACCUM frame,
4 SYNC, 5 CANCEL, 6 POISON_NOTICE.  `parts` are the accumulate parts whose slots the frame carries. -/
structure Txn where
  req : Nat
  kind : Nat
  forme : Nat
  replies : List Reply
  part : Option PartRef
  parts : List (PartRef × Nat)
  next : Nat
  total : Nat
  route : Nat
  got : List Slot
  seq : Option Nat
  cancelled : Bool
  refused : Option Nat
deriving DecidableEq, Repr

/-- A WRITE or GRAD_ACCUM frame being built (R374): what its messages must agree in, and its content. -/
structure OpenFrame where
  grad : Bool
  forme : Nat
  session : Nat
  bucket : Nat
  step : Nat
  fmt : Nat
  contributor : Nat
  copy : Nat
  start : Nat
  slots : List Slot
  replies : List Reply
  parts : List (PartRef × Nat)
deriving DecidableEq, Repr

/-- A sequenced frame waiting for credit, or sent and unacknowledged (R358). -/
structure TxFrame where
  frame : Frame
  txn : Nat
deriving DecidableEq, Repr

/-- A port's binding (R365). -/
structure Binding where
  forme : Nat
  session : Nat
  contributor : Nat
deriving DecidableEq, Repr

/-- An accepted frame in a port's receive buffer: its type, credit and transaction, and the fabric messages that have not left it (R364,
R373). -/
structure RxItem where
  frame : Frame
  msgs : List Msg
deriving DecidableEq, Repr

/-- One feeder port.  `link`: 0 OFF, 1 TRAINING, 2 HELLO, 3 UP, 4 LOST (R383); `hold` while the hold of R353 runs; `inbox` is the receive
buffer. -/
structure FPort where
  link : Nat
  hold : Bool
  mac : Nat
  seated : Bool
  accepted : Bool
  bound : Option Binding
  ptc : Nat
  epoch : Nat
  fresh : Bool
  peerEpoch : Option Nat
  peerMac : Nat
  peerMax : Nat
  peerPool : Nat
  txNext : Nat
  txAcked : Nat
  rxNext : Nat
  nakFor : Option Nat
  reqNext : Nat
  waiting : List TxFrame
  retry : List TxFrame
  resends : Nat
  inflight : Option Nat
  pendAcks : List (Nat × Nat)
  gotRes : Map Nat
  gotShared : Nat
  spentRes : Map Nat
  spentShared : Nat
  freedRes : Map Nat
  freedShared : Nat
  owed : Bool
  unreported : Nat
  ops : List Msg
  openWrite : Option OpenFrame
  openGrad : Option OpenFrame
  txns : List Txn
  cancels : List (Nat × Nat)
  sent : List TxWire
  inbox : List RxItem
  retrans : Nat
  nakRx : Nat
  frameDrop : Nat
  fecCorr : Nat
  fecUncorr : Nat
  cancelDrop : Nat
  protoErr : Nat
  excess : Nat
  poisonRx : Nat
  losses : Nat
  cwDetect : Nat
deriving DecidableEq, Repr

/-! ### Host bays and rings -/

/-- A report record being assembled (R450). -/
structure Assembly where
  core : Nat
  port : Nat
  forme : Nat
  slots : List Slot
deriving DecidableEq, Repr

/-- A closed report record waiting for ring space (R451): header fields, payload and the closing request. -/
structure Report where
  forme : Nat
  core : Nat
  port : Nat
  tag : Nat
  slots : List Slot
  reply : Option Reply
  bay : Nat
deriving DecidableEq, Repr

/-- What the host can set in a bay's configuration space (R388): the two base addresses, the power state D3hot, the MSI-X table's 16-byte
entries and the pending bits. -/
structure PciSpace where
  bar0 : Nat
  bar2 : Nat
  d3hot : Bool
  table : Map Nat
  pendingBits : List Nat
deriving DecidableEq, Repr

/-- One host bay: whether it carries a die, its trained width (0 down), its configuration space, waiting requests and assemblies. -/
structure Bay where
  die : Bool
  width : Nat
  pci : PciSpace
  ops : List Msg
  asms : List Assembly
deriving DecidableEq, Repr

/-- One part of an outstanding split command (R321).  `done` holds its status once it has completed, 256 for one that failed with the
status OK of a halted forme; `before` the requests that stood in its station's VC0 queue when it was issued (R318, R319). -/
structure Part where
  desc : Bytes
  done : Option Nat
  progress : Nat
  frames : Nat
  sentAll : Bool
  before : List Msg
deriving DecidableEq, Repr

/-- A command that has started and not completed (R422).  `ended` is set when it has done everything but make its writes to host memory
visible: the value it completes with, and the event records that it waits for (R426). -/
structure Cmd where
  sq : Nat
  opcode : Nat
  tag : Nat
  flags : Nat
  entry : Bytes
  parts : List Part
  select : Nat
  orig : Option Nat
  waits : List (Nat × Nat)
  prf : Bool
  ended : Option (Nat × List Bytes)
deriving DecidableEq, Repr

/-- The record kept of a command that completed with PARTIAL, for RESEND_PARTS; `root` is the first command of its parts (R437). -/
structure Partial where
  sq : Nat
  root : Nat
  opcode : Nat
  entry : Bytes
  parts : List Part
deriving DecidableEq, Repr

/-- One ring's set-up registers (R402) and engine state (R411-R432); `held` and `heldIrq` are the writes and
interrupts held while the bay's link is down (R391); `fences` keeps, for each fetched FENCE, the rings and indices it waits
for (R426). -/
structure Ring where
  sbase : Nat
  cbase : Nat
  dbline : Nat
  cline : Nat
  cfg : Word
  irq : Word
  err : Nat
  state : Nat
  tail : Nat
  consumed : Nat
  fetched : Nat
  produced : Nat
  entries : List (Nat × Bytes)
  fences : List (Nat × List (Nat × Nat))
  cmds : List Cmd
  partials : List Partial
  lastSq : Option Nat
  lastStatus : Option Nat
  modCount : Nat
  seq : Nat
  held : List (Nat × Bytes)
  heldIrq : Nat
deriving DecidableEq, Repr

/-! ### The hellbox, the leading plan and the boot -/

/-- A hellbox entry (R36); `part`: 0 factory, 1 additions, 2 kept under R41. -/
structure HbEntry where
  kind : Nat
  field : Nat
  col : Nat
  row : Nat
  dir : Nat
  origin : Nat
  part : Nat
deriving DecidableEq, Repr

/-- A cluster record of the leading plan (R525). -/
structure Lead where
  voff : Int
  cap : Nat
  flags : Nat
  index : Int
  r0 : Nat
deriving DecidableEq, Repr

/-- The current leading plan (R524) and the ageing history (R529). -/
structure Plan where
  generation : Nat
  plans : Nat
  prevHead : Bytes
  setpoints : Map Nat
  clusters : Map Lead
  histHead : Bytes
  histPlans : Nat
deriving DecidableEq, Repr

/-- What the accepted enablement record enables (R566). -/
structure Enable where
  part : Nat
  fields : Nat
  ports : Nat
  bays : Nat
  units : Nat
  maxCap : Nat
  signed : Bytes
  vendorPk : Bytes
deriving DecidableEq, Repr

/-- The boot in progress or done (R487-R500). -/
structure Boot where
  addr : Nat
  len : Nat
  quickAsked : Bool
  reportAddr : Nat
  reportCap : Nat
  patchDigest : Bytes
  factory : Bytes
  additionsOk : Bool
  planOk : Bool
  expectedHb : Nat
  wave : Nat
  granules : List Nat
  nearDone : Bool
  linksDone : Bool
deriving DecidableEq, Repr

/-- What the silicon itself fixes: the build, the wafer's serial, the ROM's version and vendor-key hash and
the bytes of the ROM's digest. -/
structure Phys where
  stacked : Bool
  serial : Nat
  rom : Nat
  vendorHash : Bytes
  romDigest : Bytes
deriving DecidableEq, Repr

/-! ### Records and the management stream (R531-R545) -/

/-- A record of the chain, and whether the management port has sent it. -/
structure Rec where
  bytes : Bytes
  sent : Bool
deriving DecidableEq, Repr

/-- An operation of the SLH-DSA assist (R575): 0 checkpoint of the record with seq `n`, 1 an ATTEST and
2 a HELLBOX_EXPORT of ring `n`, command `sq`; `body` is what is signed. -/
structure SigOp where
  kind : Nat
  n : Nat
  sq : Nat
  body : Bytes
deriving DecidableEq, Repr

/-- The management processor's records and its port. -/
structure Mgmt where
  identity : Bytes
  publicKey : Bytes
  key : Option (BitVec 256)
  started : Bool
  early : List Bytes
  seqNext : Nat
  chain : Bytes
  chainStartMc : Nat
  held : List Rec
  sigs : List Rec
  sigQueue : List SigOp
  sinceCheck : Nat
  checkPending : Bool
  checkDue : Bool
  oldChain : Option (Bytes × Nat)
  portUp : Bool
  prefixes : List Nat
  subscribers : List Nat
  out : List (Nat × Bytes)
  resetWait : Bool
  evHold : List Bytes
  evDropped : Nat
  windows : Map Nat
deriving DecidableEq, Repr

/-! ### The proof recorder (R546-R558) -/

/-- A running fingerprint (R554, R555): its command, class or stream, format, part, and sums. -/
structure Finger where
  ring : Nat
  sq : Nat
  source : Nat
  cls : Nat
  fmt : Nat
  part : Nat
  count : Nat
  sum : Nat
  sumsq : Nat
  maxabs : Nat
  nonfinite : Nat
  saturated : Nat
  flushed : Nat
  poisoned : Nat
  crc : Nat
deriving DecidableEq, Repr

/-- The proof recorder: closed records waiting for the ring, and open fingerprints. -/
structure Recorder where
  queue : List Bytes
  fingers : List Finger
deriving DecidableEq, Repr

/-! ### The register file, the clocks and the pins -/

/-- The set-up registers that are not a ring's (R396-R408). -/
structure Regs where
  rom : Word
  part : Nat
  helperEn : Word
  helperLock : Word
  helperPresent : Word
  bootAddr : Nat
  bootLen : Nat
  devState : Nat
  step : Nat
  quick : Bool
  bootBay : Nat
  errItem : Nat
  errStatus : Nat
  resetDefault : Bool
  powerCap : Nat
  powerInput : Nat
  flags : Word
  flagsCnt : Word
  regErr : Word
  halves : Map Nat
deriving DecidableEq, Repr

/-- Edge clocks (R466), with changes that SET_CLOCKS has ordered and that are still to come (R470): kind, unit, MHz. -/
structure Clocks where
  sbc : Nat
  mpc : Nat
  pending : List (Nat × Nat × Nat)
  pinQualified : Bool
  repeaters : Map Bool
deriving DecidableEq, Repr

/-- Supply and control-connector state (R577-R585). `input`: 0 unpowered, 1 in range, 2 out of range. -/
structure Power where
  input : Nat
  standby : Bool
  pwrOk : Bool
  resetLow : Bool
  clipALost : Bool
  clipBLost : Bool
  tripLatched : Bool
  tripWait : Bool
  heatTrip : Bool
  wavesHeld : Bool
  capHeld : Bool
deriving DecidableEq, Repr

/-! ### The whole module -/

/-- The module.  `pending` is the queue of commands, first in, first out.  `free` numbers the draws of free
values (Config). `hostMem` is what the host has stored in host memory; `msix` and `mgmt.out` and each port's
`sent` are what the module has sent out.  `cycles` counts busy, backpressure and starved cycles of the units of R561, three to a unit. -/
structure State where
  pending : List Instr
  cores : Map Core
  routers : Map Router
  clusters : Map Cluster
  fields : Map Field
  formes : Map Forme
  stations : Map Station
  fports : Map FPort
  bays : Map Bay
  rings : Map Ring
  reports : List Report
  hellbox : List HbEntry
  columns : Map (List Nat)
  mapGen : Nat
  enable : Option Enable
  boot : Boot
  phys : Phys
  plan : Plan
  mgmt : Mgmt
  recorder : Recorder
  regs : Regs
  clocks : Clocks
  power : Power
  hostMem : Mem
  hostPoison : List Nat
  msix : List (Nat × Nat)
  cycles : Map Nat
  free : Nat
deriving DecidableEq, Repr

/-! ### How a step stops -/

/-- Why the module's behaviour ends: it never does.  No command of this model faults, so the type has no constructor; what the specification
leaves undefined is a free value (R65, R468; log 76, DESIGN CHOICE, log 77, DESIGN CHOICE). -/
inductive Fault where
deriving DecidableEq, Repr

/-- Why a command has no meaning here. -/
inductive Refusal where
  /-- The command is not modelled; no command of this model raises it.  Safe. -/
  | notModelled (mnemonic : String)
deriving DecidableEq, Repr

/-! ### The values that unlisted table entries have, and the machine after reset -/

def VReg.init : VReg := { bits := 0, poison := 0 }

def Acc.init : Acc :=
  { a := 0, w := 0, set := false, cls := 0, sticky := false, rres := 0, poison := false, adds := 0 }

def HalfCtl.init : HalfCtl := { state := 0, owner := 0, width := 0, rows := 0, written := 0 }

def Half.init : Half := { ctl := HalfCtl.init, data := [] }

def Block.init : Block :=
  { start := 0, inputs := 0, sends := 0, prio := 0, replay := false, initEn := false, quoin := none }

def Galley.init : Galley :=
  { cfg := 0, geo := 0, lst := 0, spl := 0, chans := [], shut := [], wp := [], rp := [], items := [], contribs := [],
    entries := [], ext := [], debt := 0 }

def Port.init : Port :=
  { cfg := 0, state := 0, reason := 0, lenient := false, size := 0, galley := 0, target := 0, credit := 0,
    disc := 0, reserved := 0, staged := none, sent := false, lost := false }

def Steer.init : Steer := { cfg := 0, run := 0, sel := 0, tok := none }

/-- A core after a reset (R106): EMPTY, nothing loaded; what R106 and R111 leave open is zero (log 5, DESIGN CHOICE, log 6, DESIGN CHOICE). -/
def Core.init : Core :=
  { st := .empty, block := 0, pc := 0, ended := false, gated := false, fails := 0, replayed := false,
    mismChk := false, forme := 0, mapGen := 0, rank := 0, trees := 0, extGalleys := 0, tree := 0, heads := [],
    nextBlock := [], firingQuoin := none, banks := [], closing := [], releasing := [], istore := [], iecc := [],
    blocks := [], en0 := 0, en1 := 0, s := [], p := [], v := [], acc := [], store := [], ecc := [],
    unfenced := [], spill := [], h0 := Half.init, h1 := Half.init, galleys := [], ports := [], steers := [],
    rng := 0, scratch := [], sliceMode := 0, flags := 0, flagsCnt := 0, chan := 0, chanCnt := 0, fault := 0,
    faultInfo := 0, nc := [], sc := [], counted := 0, latch := [], snap := none }

def Router.init : Router :=
  { inq := [], wait := [], ejq := [], rot := [], held := [], detour := [], mcast := [], reduce := [],
    score := [], winCorr := [], winUncorr := [], scoreIgnored := 0, corr := [], uncorr := [], hpar := [],
    chaseDrop := 0, absorbed := 0, hopDrop := 0, typeDrop := 0, merged := 0, bypass := 0, detoured := 0,
    groupMiss := 0 }

/-- A cluster after a reset: clock stopped, forme setting 3.3 GHz (R460); the values before a plan or a measurement are log 7,
DESIGN CHOICE. -/
def Cluster.init : Cluster :=
  { forme := none, ladder := 0, formeStep := 33, thermStep := 33, powerStep := 33, cap := 33, voff := 0,
    qual0 := false, qual1 := false, second := false, locked := false, coasting := false, refLost := false, lostBy := 0,
    mismatches := 0, winOpen := false, retired := false, soft := 0, grant := 48, temp0 := 0, temp1 := 0,
    ageing := 0 }

/-- A field after a reset: unpowered, its stations at 1.6 GHz (R466); its budget is log 7, DESIGN CHOICE. -/
def Field.init : Field :=
  { powered := false, dark := false, pendingDark := false, hotEvals := 0, waitEvals := 0, coolEvals := 0,
    warned := false, throttled := false, stretched := false, budget := 0, power := 0, stc := 1600, testing := 0 }

def Window.init : Window := { base := 0, limit := 0, rights := 0 }

def Tree.init : Tree :=
  { isOr := false, external := false, port := 0, arrived := [], sync := none, releases := 0 }

/-- A forme that does not exist (R278). -/
def Forme.init : Forme :=
  { state := 0, resets := false, status := 0, faultClass := 0, faultCore := none, faultCode := 0, mapGen := 0,
    viewHb := 0, viewFields := 0, cx0 := 0, cy0 := 0, cx1 := 0, cy1 := 0, clockStep := 33, keeper := 0,
    patience := 0, watch := 0, halt := none, layer := none, suspect := 0, censusAddr := 0, censusCap := 0,
    halting := false, closing := false, runs := 0, waited := 0, near := [], host := [], trees := [], stereo := [] }

def Ctx.init : Ctx :=
  { base := 0, length := 0, generation := 0, writer := none, forme := 0, live := false, cw := .clean }

/-- A station after a reset: nothing waiting, nothing held (R501); its buffer reads as zeros (log 6, DESIGN CHOICE). -/
def Station.init : Station :=
  { q0 := [], q1 := [], outside := [], answers := [], mem := [], ecc := [], comb := [], idem := [], ctx := [], replay := none, replayNext := none,
    heldContribs := [], orders := [], selfRefresh := false, clockLow := false, granules := [], dup := 0,
    nospace := 0, denied := 0, unlisted := 0, combined := 0, evictions := 0, corrected := 0, uncorrected := 0 }

/-- A feeder port after a reset (R351, R364, R466); its epoch, peer and request number are log 8, DESIGN CHOICE. -/
def FPort.init : FPort :=
  { link := 0, hold := false, mac := 0, seated := false, accepted := false, bound := none, ptc := 1000, epoch := 0, fresh := true,
    peerEpoch := none, peerMac := 0, peerMax := 0, peerPool := 0, txNext := 0, txAcked := 0, rxNext := 0, nakFor := none,
    reqNext := 0, waiting := [], retry := [], resends := 0, inflight := none, pendAcks := [], gotRes := [],
    gotShared := 0, spentRes := [], spentShared := 0, freedRes := [], freedShared := 0, owed := false,
    unreported := 0, ops := [], openWrite := none, openGrad := none, txns := [], cancels := [], sent := [], inbox := [],
    retrans := 0, nakRx := 0, frameDrop := 0, fecCorr := 0, fecUncorr := 0, cancelDrop := 0, protoErr := 0,
    excess := 0, poisonRx := 0, losses := 0, cwDetect := 0 }

/-- The configuration space after a module reset (log 105, DESIGN CHOICE). -/
def PciSpace.init : PciSpace := { bar0 := 0, bar2 := 0, d3hot := false, table := [], pendingBits := [] }

def Bay.init : Bay := { die := false, width := 0, pci := PciSpace.init, ops := [], asms := [] }

def Ring.init : Ring :=
  { sbase := 0, cbase := 0, dbline := 0, cline := 0, cfg := 0, irq := 0, err := 0, state := 0, tail := 0,
    consumed := 0, fetched := 0, produced := 0, entries := [], fences := [], cmds := [], partials := [], lastSq := none,
    lastStatus := none, modCount := 0, seq := 0, held := [], heldIrq := 0 }

def Lead.init : Lead := { voff := 0, cap := 33, flags := 0, index := 0, r0 := 0 }

/-- Bytes of zeros. -/
def zeros (n : Nat) : Bytes := List.replicate n 0

def Boot.init : Boot :=
  { addr := 0, len := 0, quickAsked := false, reportAddr := 0, reportCap := 0, patchDigest := zeros 32,
    factory := [], additionsOk := false, planOk := false, expectedHb := 0, wave := 0, granules := [],
    nearDone := false, linksDone := false }

/-- The plan before any plan is made or accepted (log 7, DESIGN CHOICE). -/
def Plan.init : Plan :=
  { generation := 0, plans := 0, prevHead := zeros 32, setpoints := [], clusters := [], histHead := zeros 32,
    histPlans := 0 }

def Mgmt.init : Mgmt :=
  { identity := zeros 32, publicKey := zeros 32, key := none, started := false, early := [], seqNext := 0,
    chain := zeros 32, chainStartMc := 0, held := [], sigs := [], sigQueue := [],
    sinceCheck := 0, checkPending := false, checkDue := false, oldChain := none, portUp := false, prefixes := [], subscribers := [],
    out := [], resetWait := false, evHold := [], evDropped := 0, windows := [] }

def Recorder.init : Recorder := { queue := [], fingers := [] }

/-- The set-up registers at their reset values (R396-R408). -/
def Regs.init : Regs :=
  { rom := 0x00010000, part := 0, helperEn := 0, helperLock := 0, helperPresent := 0x7FFF, bootAddr := 0,
    bootLen := 0, devState := 0, step := 0, quick := false, bootBay := 0, errItem := 0, errStatus := 0,
    resetDefault := false, powerCap := 30, powerInput := 0, flags := 0, flagsCnt := 0, regErr := 0, halves := [] }

def Clocks.init : Clocks := { sbc := 200, mpc := 400, pending := [], pinQualified := true, repeaters := [] }

def Power.init : Power :=
  { input := 1, standby := true, pwrOk := true, resetLow := false, clipALost := false, clipBLost := false,
    tripLatched := false, tripWait := false, heatTrip := false, wavesHeld := false, capHeld := false }

/-- The silicon of the module at reset: a stacked build (log 4, DESIGN CHOICE). -/
def Phys.init : Phys :=
  { stacked := true, serial := 1, rom := 1, vendorHash := zeros 32, romDigest := zeros 32 }

/-- The module when a module reset has just ended (R501, R508): both bays trained at four modules (R386), BOOT_ROM,
every register at its reset value, no command waiting (log 4, DESIGN CHOICE, log 9, DESIGN CHOICE). -/
def State.reset : State :=
  { pending := [], cores := [], routers := [], clusters := [], fields := [], formes := [], stations := [],
    fports := [], bays := [(0, { Bay.init with die := true, width := 3 }), (1, { Bay.init with die := true, width := 3 })],
    rings := [], reports := [], hellbox := [], columns := [], mapGen := 0, enable := none,
    boot := Boot.init, phys := Phys.init, plan := Plan.init, mgmt := Mgmt.init, recorder := Recorder.init,
    regs := Regs.init, clocks := Clocks.init, power := Power.init, hostMem := [], hostPoison := [], msix := [],
    cycles := [], free := 0 }

end Sys2Proof.Machine
end

