-- ==== Sys2Proof/Machine/Bits.lean ====
section
/-! DEFINITION. Bit fields, byte order (R8), and the sparse tables and byte memories of the state. -/

namespace Sys2Proof.Machine

/-! ### Bit fields -/

/-- Bits [hi:lo] of a number. -/
def bits (w hi lo : Nat) : Nat := (w >>> lo) % 2 ^ (hi + 1 - lo)

/-- Bit `i` of a number. -/
def bit (w i : Nat) : Bool := w.testBit i

/-- A number of 0 or 1. -/
def b2n (b : Bool) : Nat := if b then 1 else 0

/-- A number's low `n` bits read as two's complement. -/
def sext (w n : Nat) : Int :=
  let v := w % 2 ^ n
  if v < 2 ^ (n - 1) then (v : Int) else (v : Int) - (2 ^ n : Nat)

/-- An integer as an `n`-bit two's-complement number. -/
def ofInt (i : Int) (n : Nat) : Nat := (i % (2 ^ n : Nat)).toNat

/-- A 32-bit word's bits [hi:lo] as a number. -/
def wordAt (w : Word) (hi lo : Nat) : Nat := bits w.toNat hi lo

/-- Sets bit `i` of a mask. -/
def setBit (w i : Nat) : Nat := w ||| 2 ^ i

/-- Clears bit `i` of a mask. -/
def clearBit (w i : Nat) : Nat := if w.testBit i then w - 2 ^ i else w

/-- The numbers below `n` whose bits are set in a mask. -/
def maskList (w n : Nat) : List Nat := (List.range n).filter (fun i => w.testBit i)

/-- Adds with saturation at an `n`-bit maximum (R11, R152, R268). -/
def satAdd (v k n : Nat) : Nat := min (v + k) (2 ^ n - 1)

/-! ### Bytes, little-endian (R8) -/

/-- A number as `k` bytes. -/
def le (n : Nat) : Nat → Bytes
  | 0 => []
  | k + 1 => BitVec.ofNat 8 n :: le (n / 256) k

/-- The number that bytes hold. -/
def ofLe : Bytes → Nat
  | [] => 0
  | b :: t => b.toNat + 256 * ofLe t

/-- `size` bytes at an offset, as a number; bytes beyond the end read as zero. -/
def bytesAt (b : Bytes) (off size : Nat) : Nat := ofLe ((b.drop off).take size)

/-- Whether every byte of a range is zero. -/
def zeroAt (b : Bytes) (off size : Nat) : Bool := ((b.drop off).take size).all (· == 0)

/-- A signed number as `k` bytes in two's complement. -/
def leInt (i : Int) (k : Nat) : Bytes := le (ofInt i (8 * k)) k

/-- Pads or cuts a byte string to `n` bytes. -/
def padTo (b : Bytes) (n : Nat) : Bytes := (b ++ zeros n).take n

/-- The 32 data bytes of a slot. -/
def Slot.bytes (x : Slot) : Bytes := le x.data.toNat 32

/-- A slot of clean codewords from up to 32 bytes. -/
def slotOf (b : Bytes) : Slot := { data := BitVec.ofNat 256 (ofLe (b.take 32)), lo := .clean, hi := .clean }

/-- Whether a slot holds poison. -/
def Slot.poisoned (x : Slot) : Bool := x.lo == .poison || x.hi == .poison

/-- A slot of zeros. -/
def zeroSlot : Slot := { data := 0, lo := .clean, hi := .clean }

/-! ### Sparse tables -/

/-- The entry of a table at a key, or the default. -/
def Map.get {α : Type} (d : α) : Map α → Nat → α
  | [], _ => d
  | (k, v) :: t, i => if k = i then v else Map.get d t i

/-- A table without a key. -/
def Map.erase {α : Type} (m : Map α) (i : Nat) : Map α := m.filter (fun e => decide (e.1 ≠ i))

/-- A table with an entry put before the first larger key. -/
def Map.insert {α : Type} : Map α → Nat → α → Map α
  | [], i, v => [(i, v)]
  | (k, w) :: t, i, v => if i < k then (i, v) :: (k, w) :: t else (k, w) :: Map.insert t i v

/-- A table with one entry replaced; a default value is not listed. -/
def Map.set {α : Type} [DecidableEq α] (d : α) (m : Map α) (i : Nat) (v : α) : Map α :=
  if v = d then Map.erase m i else Map.insert (Map.erase m i) i v

/-- A table changed at one key. -/
def Map.upd {α : Type} [DecidableEq α] (d : α) (m : Map α) (i : Nat) (f : α → α) : Map α :=
  Map.set d m i (f (Map.get d m i))

/-- A table of counters with one advanced, saturating at `n` bits. -/
def Map.bump (m : Map Nat) (i k n : Nat) : Map Nat := Map.upd 0 m i (fun v => satAdd v k n)

/-- The canonical form of a table: keys strictly rising, no default entries. -/
def Map.wf {α : Type} [DecidableEq α] (d : α) (m : Map α) : Bool :=
  decide (m.Pairwise (fun a b => a.1 < b.1)) && m.all (fun e => decide (e.2 ≠ d))

/-! ### Byte memories -/

/-- The byte at an address; an unlisted address reads as zero. -/
def Mem.read (m : Mem) (a : Nat) : Byte := Map.get 0 m a

/-- A memory with one byte written. -/
def Mem.write (m : Mem) (a : Nat) (b : Byte) : Mem := Map.set 0 m a b

/-- `n` bytes from an address. -/
def Mem.readN (m : Mem) (a : Nat) : Nat → Bytes
  | 0 => []
  | n + 1 => m.read a :: Mem.readN m (a + 1) n

/-- A memory with bytes written from an address. -/
def Mem.writeN (m : Mem) (a : Nat) : Bytes → Mem
  | [] => m
  | b :: t => Mem.writeN (m.write a b) (a + 1) t

/-- The canonical form of a byte memory. -/
def Mem.wf (m : Mem) : Bool := Map.wf (0 : Byte) m

/-- The canonical form of host memory, whose unlisted bytes have no value of their own (log 2, DESIGN CHOICE). -/
def Mem.sorted (m : Mem) : Bool := decide (m.Pairwise (fun a b => a.1 < b.1))

/-- Host memory with one byte stored: every byte stored stays listed. -/
def Mem.put (m : Mem) (a : Nat) (b : Byte) : Mem := Map.insert (Map.erase m a) a b

/-- Host memory with bytes stored from an address. -/
def Mem.putN (m : Mem) (a : Nat) : Bytes → Mem
  | [] => m
  | b :: t => Mem.putN (m.put a b) (a + 1) t

end Sys2Proof.Machine
end

