-- ==== Sys2Proof/Machine/Num.lean ====
section
/-! DEFINITION. Number formats, exact decode, one rounding for every target, and exact arithmetic (R122-R128,
R143-R148). -/

namespace Sys2Proof.Machine

/-! ### Format codes (R122) -/

/-- A value taken out of a format: class 0 finite and nonzero, 1 zero, 2 infinity, 3 NaN; the finite value is
(-1)^neg · m · 2^e. -/
structure Fval where
  cls : Nat
  neg : Bool
  m : Nat
  e : Int
deriving DecidableEq, Repr

/-- Whether a code names a format (R124). -/
def fmtOk (f : Nat) : Bool := decide (f < 12)

/-- Bits of an element (R122). -/
def fmtBits (f : Nat) : Nat :=
  if f = 0 ∨ f = 11 then 32 else if f = 1 ∨ f = 2 then 16 else if f = 5 ∨ f = 6 then 6
  else if f = 7 ∨ f = 9 then 4 else 8

/-- Element width in the transposing buffer and in operand streams (R129, R186). -/
def fmtStream (f : Nat) : Nat := if f = 5 ∨ f = 6 then 8 else fmtBits f

/-- Whether a format is of the narrow rate class (R122). -/
def fmtNarrow (f : Nat) : Bool := decide (f = 5 ∨ f = 6 ∨ f = 7 ∨ f = 9)

/-- Whether a format is an integer. -/
def fmtInt (f : Nat) : Bool := decide (8 ≤ f)

/-- Fraction bits of a floating format. -/
def fmtFrac (f : Nat) : Nat :=
  if f = 0 then 23 else if f = 1 then 7 else if f = 2 then 10 else if f = 3 then 3 else if f = 4 then 2
  else if f = 5 then 2 else if f = 6 then 3 else 1

/-- Exponent bits of a floating format. -/
def fmtExp (f : Nat) : Nat :=
  if f = 0 then 8 else if f = 1 then 8 else if f = 2 then 5 else if f = 3 then 4 else if f = 4 then 5
  else if f = 5 then 3 else 2

/-- Exponent bias of a floating format. -/
def fmtBias (f : Nat) : Int :=
  if f = 0 then 127 else if f = 1 then 127 else if f = 2 then 15 else if f = 3 then 7 else if f = 4 then 15
  else if f = 5 then 3 else 1

/-- Whether a format has infinities and NaNs as IEEE 754 does (R123). -/
def fmtIeee (f : Nat) : Bool := decide (f ≤ 2 ∨ f = 4)

/-- The encoding of the largest finite magnitude (R122). -/
def fmtMax (f : Nat) : Nat :=
  if fmtIeee f then (2 ^ fmtExp f - 1) * 2 ^ fmtFrac f - 1
  else if f = 3 then 0x7E else 2 ^ (fmtExp f + fmtFrac f) - 1

/-- The canonical NaN, or +0 where the target has none (R146). -/
def fmtNan (f : Nat) : Nat :=
  if f = 0 then 0x7FC00000 else if f = 1 then 0x7FC0 else if f = 2 then 0x7E00 else if f = 3 then 0x7F
  else if f = 4 then 0x7E else 0

/-- Least value of an integer format. -/
def intLeast (f : Nat) : Int := if f = 8 then -128 else if f = 9 then -8 else if f = 10 then 0 else -2147483648

/-- Largest value of an integer format. -/
def intMax (f : Nat) : Int := if f = 8 then 127 else if f = 9 then 7 else if f = 10 then 255 else 2147483647

/-! ### Decode (R123, R128) -/

/-- Plus zero. -/
def Fval.zero : Fval := { cls := 1, neg := false, m := 0, e := 0 }

/-- A NaN. -/
def Fval.nan : Fval := { cls := 3, neg := false, m := 0, e := 0 }

/-- An infinity. -/
def Fval.inf (neg : Bool) : Fval := { cls := 2, neg := neg, m := 0, e := 0 }

/-- A finite value; a magnitude of zero is a zero of the given sign. -/
def Fval.fin (neg : Bool) (m : Nat) (e : Int) : Fval := { cls := if m = 0 then 1 else 0, neg := neg, m := m, e := e }

/-- The value A · 2^w of an integer. -/
def Fval.ofInt (a : Int) (w : Int) : Fval := Fval.fin (decide (a < 0)) a.natAbs w

/-- The exact value of an element, with the sign of a zero kept (R123, R128). -/
def decodeNum (f b : Nat) : Fval :=
  if fmtInt f then
    Fval.ofInt (if f = 10 then (((b % 256 : Nat)) : Int) else sext b (fmtBits f)) 0
  else
    let neg := b.testBit (fmtBits f - 1)
    let ex := (b >>> fmtFrac f) % 2 ^ fmtExp f
    let fr := b % 2 ^ fmtFrac f
    if fmtIeee f ∧ ex = 2 ^ fmtExp f - 1 then
      if fr = 0 then Fval.inf neg else { Fval.nan with neg := neg }
    else if f = 3 ∧ ex = 15 ∧ fr = 7 then { Fval.nan with neg := neg }
    else if ex = 0 then Fval.fin neg fr (1 - fmtBias f - fmtFrac f)
    else Fval.fin neg (fr + 2 ^ fmtFrac f) ((ex : Int) - fmtBias f - fmtFrac f)

/-! ### Rounding and encode (R144, R146) -/

/-- The numeric events of one result (R151). -/
structure NumEv where
  sat : Bool
  ftz : Bool
  inf : Bool
deriving DecidableEq, Repr

def NumEv.none : NumEv := { sat := false, ftz := false, inf := false }

/-- How a result is rounded (R144, R146): mode 0 nearest even, 1 toward zero, 2 stochastic; `ieee` the IEEE
overflow mode; `flush` the flush bit; `u` the draw. -/
structure Rnd where
  mode : Nat
  ieee : Bool
  flush : Bool
  u : Nat
deriving DecidableEq, Repr

/-- Round to nearest even in the IEEE overflow mode. -/
def Rnd.rne : Rnd := { mode := 0, ieee := true, flush := false, u := 0 }

/-- m · 2^e in units of 2^q, rounded in a mode (R144). -/
def roundTo (m : Nat) (e q : Int) (mode u : Nat) : Nat :=
  if q ≤ e then m * 2 ^ (e - q).toNat
  else
    let sh := (q - e).toNat
    let n := m >>> sh
    let r := m % 2 ^ sh
    if r = 0 ∨ mode = 1 then n
    else if mode = 0 then
      if 2 * r > 2 ^ sh ∨ (2 * r = 2 ^ sh ∧ n % 2 = 1) then n + 1 else n
    else if (r * 65536) >>> sh + u ≥ 65536 then n + 1 else n

/-- An integer target's encoding of an exact value, and the events (R144, R146, R151). -/
def encodeInt (f : Nat) (x : Fval) (r : Rnd) : Nat × NumEv :=
  let w := fmtBits f
  let sat : NumEv := { NumEv.none with sat := true }
  if x.cls = 3 then (0, .none)
  else if x.cls = 2 then (ofInt (if x.neg then intLeast f else intMax f) w, sat)
  else if x.cls = 1 then (0, .none)
  else
    let n := roundTo x.m x.e 0 r.mode r.u
    let v : Int := if x.neg then -(n : Int) else n
    if v > intMax f then (ofInt (intMax f) w, sat)
    else if v < intLeast f then (ofInt (intLeast f) w, sat)
    else (ofInt v w, { NumEv.none with ftz := decide (n = 0) })

/-- A target's encoding of an exact value, and the events (R144, R146, R151).  An infinity that FP8 E4M3 writes as NaN in
the IEEE overflow mode keeps its sign (log 80, DESIGN CHOICE). -/
def encodeNum (f : Nat) (x : Fval) (r : Rnd) : Nat × NumEv :=
  if fmtInt f then encodeInt f x r
  else
    let sign := if x.neg then 2 ^ (fmtBits f - 1) else 0
    let infinity := (2 ^ fmtExp f - 1) * 2 ^ fmtFrac f
    if x.cls = 3 then (fmtNan f, .none)
    else if x.cls = 2 then
      if r.ieee && fmtIeee f then (sign + infinity, { NumEv.none with inf := true })
      else if r.ieee && decide (f = 3) then (sign + 0x7F, .none)
      else (sign + fmtMax f, { NumEv.none with sat := true })
    else if x.cls = 1 then (sign, .none)
    else
      let emin : Int := 1 - fmtBias f - fmtFrac f
      let q : Int := max (x.e + (Nat.log2 x.m : Int) - fmtFrac f) emin
      let n := roundTo x.m x.e q r.mode r.u
      if n = 0 then (sign, { NumEv.none with ftz := true })
      else
        let b := (q - emin).toNat * 2 ^ fmtFrac f + n
        if b > fmtMax f then
          if r.ieee && decide (r.mode ≠ 1) && fmtIeee f then
            (sign + infinity, { sat := true, ftz := false, inf := true })
          else if r.ieee && decide (r.mode ≠ 1) && decide (f = 3) then
            (sign + 0x7F, { NumEv.none with sat := true })
          else (sign + fmtMax f, { NumEv.none with sat := true })
        else if r.flush && decide (b < 2 ^ fmtFrac f) then (sign, { NumEv.none with ftz := true })
        else (sign + b, .none)

/-! ### Exact arithmetic (R147) -/

/-- The signed integer of a finite value or zero, in units of 2^q, where q is not above its exponent. -/
def Fval.units (x : Fval) (q : Int) : Int :=
  let a : Int := ((x.m * 2 ^ (x.e - q).toNat : Nat) : Int)
  if x.neg then -a else a

/-- The exact product, and whether the operation is invalid (R132). -/
def Fval.mul (x y : Fval) : Fval × Bool :=
  let s := x.neg != y.neg
  if x.cls = 3 ∨ y.cls = 3 then (.nan, false)
  else if (x.cls = 2 ∧ y.cls = 1) ∨ (x.cls = 1 ∧ y.cls = 2) then (.nan, true)
  else if x.cls = 2 ∨ y.cls = 2 then (.inf s, false)
  else if x.cls = 1 ∨ y.cls = 1 then ({ Fval.zero with neg := s }, false)
  else (.fin s (x.m * y.m) (x.e + y.e), false)

/-- The exact sum, and whether the operation is invalid.  An exact zero from opposite signs is +0. -/
def Fval.add (x y : Fval) : Fval × Bool :=
  if x.cls = 3 ∨ y.cls = 3 then (.nan, false)
  else if x.cls = 2 ∧ y.cls = 2 then if x.neg = y.neg then (x, false) else (.nan, true)
  else if x.cls = 2 then (x, false)
  else if y.cls = 2 then (y, false)
  else if x.cls = 1 ∧ y.cls = 1 then ({ Fval.zero with neg := x.neg && y.neg }, false)
  else if x.cls = 1 then (y, false)
  else if y.cls = 1 then (x, false)
  else
    let q := min x.e y.e
    (.ofInt (x.units q + y.units q) q, false)

/-- The value with its sign changed. -/
def Fval.negate (x : Fval) : Fval := { x with neg := !x.neg }

/-- Whether x < y for two values that are no NaN; the zeros are equal. -/
def Fval.lt (x y : Fval) : Bool :=
  let key (z : Fval) : Int := if z.cls = 2 then (if z.neg then -2 else 2) else 0
  if x.cls = 2 ∨ y.cls = 2 then decide (key x < key y)
  else
    let q := min x.e y.e
    decide (x.units q < y.units q)

/-! ### The stochastic generator (R145) -/

/-- One step of the generator. -/
def rngStep (x : Word) : Word :=
  let a : Word := if x = 0 then 0x6D2B79F5 else x
  let b := a ^^^ (a <<< 13)
  let c := b ^^^ (b >>> 17)
  c ^^^ (c <<< 5)

/-- Draws for `2 * k` values, and the state after them. -/
def draws (x : Word) : Nat → List Nat × Word
  | 0 => ([], x)
  | k + 1 =>
    let y := rngStep x
    let r := draws y k
    (bits y.toNat 15 0 :: bits y.toNat 31 16 :: r.1, r.2)

/-! ### Block scales (R126) -/

/-- An element with its E8M0 scale. -/
def scaleNum (f : Nat) (x : Fval) (scale : Nat) : Fval :=
  if scale = 255 then .nan
  else
    let e := x.e + ((scale : Int) - 127)
    { x with e := if f = 8 then e - 6 else e }

/-- Elements packed little-endian at a width. -/
def packBits (w : Nat) : List Nat → Nat
  | [] => 0
  | x :: t => x % 2 ^ w + 2 ^ w * packBits w t

/-- Element `i` of a number packed at a width. -/
def elemBits (w x i : Nat) : Nat := (x >>> (i * w)) % 2 ^ w

end Sys2Proof.Machine
end

