-- ==== Sys2Proof/Machine/Accum.lean ====
section
/-! DEFINITION. The accumulation window (R137-R142, R156) and what is read out of it. -/

namespace Sys2Proof.Machine

/-- Whether an integer fits 96-bit two's complement. -/
def fits96 (a : Int) : Bool := decide (-(2 ^ 95) ≤ a ∧ a < 2 ^ 95)

/-- ±p · 2^k truncated toward zero (R140). -/
def addend (p : Int) (k : Int) : Int :=
  if 0 ≤ k then p * 2 ^ k.toNat else p.tdiv (2 ^ (-k).toNat)

/-- Whether ±p · 2^k loses bits. -/
def addendLoses (p : Int) (k : Int) : Bool :=
  if 0 ≤ k then false else decide (p.tmod (2 ^ (-k).toNat) ≠ 0)

/-- A residue modulo 7 in 0-6 (R156). -/
def res7 (a : Int) : Nat := (a % 7).toNat

/-- The comparison of rres with A modulo 7 (R156). -/
def Acc.residueOk (x : Acc) : Bool := x.rres == res7 x.a

/-- One window shift (R139); rres is reloaded from the shifted A (R156). -/
def Acc.shift (x : Acc) : Acc :=
  let a := x.a.tdiv 256
  { x with a := a, w := x.w + 8, sticky := x.sticky || decide (x.a.tmod 256 ≠ 0), rres := res7 a }

/-- Whether the exact sum A ± P · 2^k fits 96-bit two's complement (R139). -/
def fitsExact (a p k : Int) : Bool :=
  if 0 ≤ k then fits96 (a + p * 2 ^ k.toNat)
  else
    let u : Int := 2 ^ (-k).toNat
    decide (-(2 ^ 95) * u ≤ a * u + p ∧ a * u + p < 2 ^ 95 * u)

/-- The window shifts that a value at exponent q needs, with the number of them, and whether a residue comparison before one of them
fails (R139, R156). -/
def Acc.shiftUp (p q : Int) : Nat → Acc → Acc × Nat × Bool
  | 0, x => (x, 0, false)
  | n + 1, x =>
    let k := q - x.w
    if k > 78 ∨ !fitsExact x.a p k then
      let r := Acc.shiftUp p q n x.shift
      (r.1, r.2.1 + 1, r.2.2 || !x.residueOk)
    else (x, 0, false)

/-- Enough window shifts for any value: W is 12 bits and q lies within ±2,048. -/
def maxShifts : Nat := 1024

/-- What one addition did: shifts, dropped, invalid, and a residue comparison that failed (R151, R156). -/
structure AddEv where
  shifts : Nat
  drops : Nat
  invalid : Bool
  bad : Bool
deriving DecidableEq, Repr

/-- A finite nonzero value p · 2^q added (R139-R141); after every sixteenth addition rres is compared (R156). -/
def Acc.addFinite (x : Acc) (p q : Int) : Acc × AddEv :=
  if x.cls ≠ 0 then (x, ⟨0, 0, false, false⟩)
  else
    let x := if x.set then x else { x with w := q - 40, set := true }
    let r := x.shiftUp p q maxShifts
    let y := r.1
    let k := q - y.w
    if k ≤ -16 then ({ y with sticky := true }, ⟨r.2.1, 1, false, r.2.2⟩)
    else
      let v := addend p k
      let z := { y with a := y.a + v, sticky := y.sticky || addendLoses p k, rres := (y.rres + res7 v) % 7,
                        adds := (y.adds + 1) % 16 }
      (z, ⟨r.2.1, 0, false, r.2.2 || (z.adds == 0 && !z.residueOk)⟩)

/-- A NaN or an infinity added (R142), and whether that is invalid. -/
def Acc.addSpecial (x : Acc) (v : Fval) : Acc × Bool :=
  if v.cls = 3 then ({ x with cls := 3 }, false)
  else
    let c := if v.neg then 2 else 1
    if x.cls = 0 then ({ x with cls := c }, false)
    else if x.cls = c ∨ x.cls = 3 then (x, false)
    else ({ x with cls := 3 }, true)

/-- A value added to a window (R139-R142); a zero contributes nothing. -/
def Acc.addNum (x : Acc) (v : Fval) : Acc × AddEv :=
  if v.cls = 1 then (x, ⟨0, 0, false, false⟩)
  else if v.cls = 0 then x.addFinite (if v.neg then -(v.m : Int) else v.m) v.e
  else
    let r := x.addSpecial v
    (r.1, ⟨0, 0, r.2, false⟩)

/-- A cleared element (R138), with a preset window exponent or none. -/
def Acc.cleared (preset : Option Int) : Acc :=
  match preset with
  | none => Acc.init
  | some w => { Acc.init with w := w, set := true }

/-- The value a drain rounds (R146): +0 when nothing is set or A is zero. -/
def Acc.value (x : Acc) : Fval :=
  if x.cls = 3 then .nan
  else if x.cls = 1 then .inf false
  else if x.cls = 2 then .inf true
  else if !x.set then .zero
  else .ofInt x.a x.w

/-- The exact sum of values in a fresh window, with the events (R149, R180, R192).  A value is placed by its significand as
an integer and the exponent of that integer's last place: 24 bits for an FP32 value, 48 for a product, subnormal significands as they
stand (log 79, DESIGN CHOICE). -/
def windowSum (vs : List Fval) : Acc × AddEv :=
  vs.foldl (fun (r : Acc × AddEv) v =>
    let t := r.1.addNum v
    (t.1, ⟨r.2.shifts + t.2.shifts, r.2.drops + t.2.drops, r.2.invalid || t.2.invalid, r.2.bad || t.2.bad⟩))
    (Acc.init, ⟨0, 0, false, false⟩)

end Sys2Proof.Machine
end

