-- ==== Sys2Proof/Machine/Flags.lean ====
section
/-! DEFINITION. The flags, event counters and numeric counters of a core (R11, R115-R117, R151-R154, R199), and the
context in which a core's step runs. -/

namespace Sys2Proof.Machine

/-- A core fault: code, CS_FAULT_INFO and the unit of R118 (R104). -/
structure Stop where
  code : Nat
  info : Nat
  unit : Nat
deriving DecidableEq, Repr

/-- What a core's step reports to the rest of the device: a corrected or uncorrectable codeword (memory and location
of R534), or a mismatch (R159): a checker lane when `chk`, with the slice, or 3 for the vector unit, and the lane. -/
inductive CoreEv where
  | corrected (mem loc : Nat)
  | uncorrected (mem loc : Nat)
  | mismatch (chk : Bool) (slice lane : Nat)
deriving DecidableEq, Repr

/-- A core's step as it runs: the core's number, the core, the next free draw, what it reports, the messages it puts into its router's
local input, the fault that stops it, whether its counter changes are numeric events (a CSW's are not), and whether a corrected read sets
CS_FLAGS.COR (R199: not one of PROD or STW; log 81, DEDUCED). -/
structure Cx where
  me : Nat
  core : Core
  free : Nat
  evs : List CoreEv
  msgs : List Msg
  stop : Option Stop
  tally : Bool
  cor : Bool
deriving DecidableEq, Repr

/-- A step that has done nothing yet. -/
def Cx.start (me : Nat) (x : Core) (free : Nat) : Cx :=
  { me := me, core := x, free := free, evs := [], msgs := [], stop := none, tally := true, cor := true }

/-- The step with its core changed. -/
def Cx.mapCore (x : Cx) (f : Core → Core) : Cx := { x with core := f x.core }

/-- The step stopped by a core fault; an earlier fault stands. -/
def Cx.halt (x : Cx) (code info unit : Nat) : Cx :=
  match x.stop with
  | some _ => x
  | none => { x with stop := some ⟨code, info, unit⟩ }

/-- The step with one more report. -/
def Cx.report (x : Cx) (e : CoreEv) : Cx := { x with evs := x.evs ++ [e] }

/-- A free bit, and the step after the draw. -/
def Cx.freeBit (x : Cx) : Bool × Cx := ((Config.freeNat x.free) % 2 == 1, { x with free := x.free + 1 })

/-! ### CS_FLAGS and CS_CHAN -/

abbrev Flag.cor : Nat := 0
abbrev Flag.psn : Nat := 1
abbrev Flag.res : Nat := 2
abbrev Flag.chk : Nat := 3
abbrev Flag.rpl : Nat := 4

/-- Adds to a 32-bit event counter, saturating (R117). -/
def addSat32 (w : Word) (k : Nat) : Word := BitVec.ofNat 32 (satAdd w.toNat k 32)

/-- Sets a bit of CS_FLAGS and counts the set (R11, R115, R117). -/
def Core.setFlag (x : Core) (b : Nat) : Core :=
  { x with flags := x.flags ||| BitVec.ofNat 32 (2 ^ b), flagsCnt := addSat32 x.flagsCnt 1 }

/-- Sets CLS of a port in CS_CHAN and counts the set (R116, R117). -/
def Core.setCls (x : Core) (n : Nat) : Core :=
  { x with chan := x.chan ||| BitVec.ofNat 32 (2 ^ n), chanCnt := addSat32 x.chanCnt 1 }

/-- Sets REF of a port in CS_CHAN and counts the set (R116, R117). -/
def Core.setRef (x : Core) (n : Nat) : Core :=
  { x with chan := x.chan ||| BitVec.ofNat 32 (2 ^ (16 + n)), chanCnt := addSat32 x.chanCnt 1 }

/-! ### Numeric counters (R151, R152) -/

abbrev Nc.sat : Nat := 0
abbrev Nc.ftz : Nat := 1
abbrev Nc.nanIn : Nat := 2
abbrev Nc.infOut : Nat := 3
abbrev Nc.wshift : Nat := 4
abbrev Nc.udrop : Nat := 5
abbrev Nc.mismatch : Nat := 6

/-- The CS_ index of a live counter (R152). -/
def ncIndex (u k : Nat) : Nat := 0x100 + 0x10 * u + k

/-- Counts events in a live counter, saturating (R152). -/
def Core.count (x : Core) (u k n : Nat) : Core := { x with nc := x.nc.bump (ncIndex u k) n 32 }

/-- Counts the events of one result (R151). -/
def Core.countEv (x : Core) (u : Nat) (e : NumEv) : Core :=
  ((x.count u Nc.sat (b2n e.sat)).count u Nc.ftz (b2n e.ftz)).count u Nc.infOut (b2n e.inf)

/-- Copies a unit's seven live counters into its snapshot counters (R153). -/
def Core.snapCounters (x : Core) (u : Nat) : Core :=
  let copy (m : Map Nat) (k : Nat) := Map.set 0 m (0x140 + 0x10 * u + k) (Map.get 0 m (ncIndex u k))
  { x with nc := (List.range 7).foldl copy x.nc }

/-- A mismatch of a unit counted and reported, with no flag (R159). -/
def Cx.noteMismatch (x : Cx) (chk : Bool) (u lane : Nat) : Cx :=
  { x with core := x.core.count u Nc.mismatch 1, evs := x.evs ++ [.mismatch chk u lane] }

/-- A mismatch of a unit: counted, flagged and reported (R159). -/
def Cx.mismatch (x : Cx) (chk : Bool) (u lane : Nat) : Cx :=
  (x.noteMismatch chk u lane).mapCore (·.setFlag (if chk then Flag.chk else Flag.res))

/-- A residue mismatch of a unit when a comparison found one (R155, R156). -/
def Cx.residueCheck (x : Cx) (found : Bool) (u : Nat) : Cx := if found then x.mismatch false u 0 else x

/-- A checker-lane mismatch when the step observed one (R158). -/
def Cx.laneCheck (x : Cx) (o : Obs) : Cx :=
  match o.checker with
  | some l => x.mismatch true 3 (l % 16)
  | none => x

/-- The read found a correctable error: corrected, flagged and reported (R78, R199). -/
def Cx.foundCorrectable (x : Cx) (mem loc : Nat) : Cx :=
  { x with core := if x.cor then x.core.setFlag Flag.cor else x.core, evs := x.evs ++ [.corrected mem loc] }

/-- The read found poisoned data (R103). -/
def Cx.foundPoison (x : Cx) (p : Bool) : Cx := if p then x.mapCore (·.setFlag Flag.psn) else x

end Sys2Proof.Machine
end

