-- ==== Sys2Proof/Machine/Operands.lean ====
section
/-! DEFINITION. Instruction fields and legality (R161-R165), the register files, and the operand forms of core
instructions: core store, galley heads, vector lanes and operand streams (R72-R82, R101-R103, R185-R187). -/

namespace Sys2Proof.Machine

/-! ### Fields of an instruction word (R161, R162) -/

def fOp (w : Nat) : Nat := bits w 31 26
def fD (w : Nat) : Nat := bits w 21 17
def fA (w : Nat) : Nat := bits w 16 12
def fB (w : Nat) : Nat := bits w 11 7
def fFn (w : Nat) : Nat := bits w 6 0
def fImm12 (w : Nat) : Nat := bits w 11 0
def fImm16 (w : Nat) : Nat := bits w 15 0
def fIndex (w : Nat) : Nat := bits w 9 0
def fType (w : Nat) : Nat := bits w 6 5
def fRnd (w : Nat) : Nat := bits w 4 3
def fFtz (w : Nat) : Bool := bit w 2
def fNeg (w : Nat) : Bool := bit w 1
def fCond (w : Nat) : Nat := bits w 4 2
def fKSrc (w : Nat) : Nat := bits w 11 8
def fKDst (w : Nat) : Nat := bits w 7 4
def fKRnd (w : Nat) : Nat := bits w 3 2
def fSlice (w : Nat) : Nat := bits w 21 20
def fBank (w : Nat) : Nat := bits w 19 18
def fDp (w : Nat) : Nat := bits w 17 13
def fSrcA (w : Nat) : Nat := bits w 12 8
def fSrcB (w : Nat) : Nat := bits w 7 3
def fDFmt (w : Nat) : Nat := bits w 12 9
def fDRnd (w : Nat) : Nat := bits w 8 7
def fHalf (w : Nat) : Nat := bits w 21 21
def fTSlice (w : Nat) : Nat := bits w 20 19
def fTWidth (w : Nat) : Nat := bits w 18 17
def fTRows (w : Nat) : Nat := bits w 16 12 + 1
def fTRow (w : Nat) : Nat := bits w 20 16
def fTSrc (w : Nat) : Nat := bits w 15 11
def fTImm (w : Nat) : Nat := bits w 10 0
def fPort (w : Nat) : Nat := bits w 21 18
def fSSrc (w : Nat) : Nat := bits w 17 13
def fSLen (w : Nat) : Nat := bits w 12 10 + 1
def fSTag (w : Nat) : Nat := bits w 9 5
def fSSt (w : Nat) : Nat := bits w 4 0
def fGalley (w : Nat) : Nat := bits w 16 13
def fSel (w : Nat) : Nat := bits w 12 7
def fHN (w : Nat) : Nat := bits w 21 18
def fHA (w : Nat) : Nat := bits w 17 13
def fHB (w : Nat) : Nat := bits w 12 8
def fHKind (w : Nat) : Nat := bits w 7 7

/-- The row of the table of steps that a word belongs to: its major opcode, or 64 + fn for the SYS group. -/
def rowOf (w : Nat) : Nat := if fOp w = 0 then 64 + fFn w else fOp w

/-- Whether a 32-bit wide format (R143). -/
def wideFmt (f : Nat) : Bool := decide (fmtBits f = 32)

/-- Rounding, flush and type checks of the arithmetic V format (R164). -/
def legalVArith (w : Nat) : Bool :=
  decide (fRnd w ≠ 3) && !(decide (fType w = 3) && (decide (fRnd w ≠ 0) || fFtz w)) && !bit w 0

/-- Whether a word is a legal instruction (R162, R164, R166-R198); the core checks this at issue (R164). -/
def legal (w : Nat) : Bool :=
  let op := fOp w
  let pD := decide (fD w < 8)
  let noFlags := decide (bits w 6 0 = 0)
  if op = 0x00 then
    if fFn w < 3 then decide (bits w 21 7 = 0)
    else decide (fFn w = 3) && decide (fD w = 0) && decide (fA w < 16) && decide (fB w = 0)
  else if op = 0x01 then decide (bits w 21 12 = 0)
  else if op = 0x02 then decide (bits w 16 12 = 0)
  else if op = 0x03 then pD && decide (fA w < 8) && decide (fB w < 8) && decide (fFn w ≤ 5)
  else if op = 0x04 then decide (fFn w ≤ 15) && !(decide (fFn w = 15) && decide (fB w ≠ 0))
  else if op ≤ 0x08 then true
  else if op = 0x09 then decide (bits w 6 5 ≠ 3) && decide (bits w 11 7 = 0)
  else if op ≤ 0x0B then !bit w 16
  else if op = 0x0C then pD && decide (fFn w ≤ 5)
  else if op = 0x0D then pD && decide (bits w 11 9 ≤ 5)
  else if op ≤ 0x11 then true
  else if op = 0x12 then decide (bits w 16 10 = 0)
  else if op = 0x13 then decide (fD w = 0) && decide (bits w 11 10 = 0)
  else if op = 0x15 then decide (fD w < 4) && decide (bits w 11 0 = 0)
  else if op = 0x16 then decide (bits w 21 7 = 0)
  else if 0x18 ≤ op ∧ op ≤ 0x1A then legalVArith w && !fNeg w
  else if op = 0x1B then legalVArith w && decide (fType w ≠ 3)
  else if op = 0x1C ∨ op = 0x1D then legalVArith w && decide (fType w ≠ 3) && !fNeg w
  else if op = 0x1E then decide (fB w ≤ 2) && decide (bits w 4 0 = 0)
  else if op = 0x1F then decide (fB w = 0) && decide (bits w 4 0 = 0)
  else if op = 0x20 then decide (fB w < 16) && noFlags
  else if op = 0x21 then decide (fB w < 15) && noFlags
  else if op = 0x22 then noFlags
  else if op = 0x23 then decide (fFn w ≤ 8)
  else if op = 0x24 then decide (fCond w ≤ 3) && decide (bits w 1 0 = 0)
  else if op = 0x25 then decide (fFn w = 0)
  else if op = 0x26 then legalVArith w && decide (fType w ≠ 3) && !fNeg w && decide (fA w + fB w ≤ 31)
  else if op = 0x27 then
    fmtOk (fKSrc w) && fmtOk (fKDst w) && decide (fKRnd w ≠ 3) && !(wideFmt (fKSrc w) && decide (fA w = 31))
      && !(wideFmt (fKDst w) && decide (fD w = 31))
  else if op = 0x28 then decide (fB w ≤ 5) && noFlags
  else if op = 0x2A then
    decide (fSlice w ≠ 3) && decide (fDp w % 2 = 0) && decide (2 ≤ fDp w) && decide (bits w 2 0 = 0)
  else if op = 0x2B then decide (fSlice w ≠ 3) && decide (bits w 12 0 = 0)
  else if op = 0x2C then
    decide (fSlice w ≠ 3) && fmtOk (fDFmt w) && decide (fDRnd w ≠ 3) && decide (bits w 3 0 = 0)
      && !(wideFmt (fDFmt w) && decide (fDp w = 31))
  else if op = 0x2D then decide (fSlice w ≠ 3) && decide (bits w 12 0 = 0)
  else if op = 0x2E then decide (fSlice w ≠ 3) && decide (fSrcA w ≤ 30) && decide (bits w 7 0 = 0)
  else if op = 0x30 then decide (fTSlice w ≠ 3) && decide (bits w 11 0 = 0)
  else if op = 0x31 then decide (bits w 10 0 = 0)
  else if op = 0x32 then true
  else if op = 0x33 then decide (fTSlice w ≠ 3) && decide (bits w 18 0 = 0)
  else if op = 0x38 then decide (bits w 7 0 = 0)
  else if op = 0x39 then decide (fHA w = 0) && decide (bits w 7 0 = 0)
  else if op = 0x3A then decide (fHA w = 0) && decide (fHB w = 0) && decide (bits w 6 0 = 0)
  else if op = 0x3B then decide (fSSrc w + (fSLen w + 1) / 2 ≤ 32)
  else if op = 0x3C then true
  else if op = 0x3D then decide (fSel w < 4) && decide (bits w 6 0 = 0)
  else if op = 0x3E then decide (bits w 6 0 = 0)
  else if op = 0x3F then decide (fHB w = 0) && decide (bits w 7 0 = 0)
  else false

/-! ### Register files (R55) -/

/-- A scalar register; s0 reads as zero. -/
def Core.rdS (x : Core) (r : Nat) : Word := if r = 0 then 0 else Map.get 0 x.s r

/-- Writes a scalar register; s0 ignores writes. -/
def Core.wrS (x : Core) (r : Nat) (v : Word) : Core := if r = 0 then x else { x with s := Map.set 0 x.s r v }

/-- A predicate register; p0 reads as true. -/
def Core.rdP (x : Core) (r : Nat) : Bool := if r = 0 then true else Map.get false x.p r

/-- Writes a predicate register; p0 ignores writes. -/
def Core.wrP (x : Core) (r : Nat) (v : Bool) : Core := if r = 0 then x else { x with p := Map.set false x.p r v }

/-- A vector register. -/
def Core.rdV (x : Core) (r : Nat) : VReg := Map.get VReg.init x.v r

/-- Writes a vector register. -/
def Core.wrV (x : Core) (r : Nat) (v : VReg) : Core := { x with v := Map.set VReg.init x.v r v }

/-- An accumulator element: slice, bank, element 8i + j (R137). -/
def Core.rdAcc (x : Core) (sl bk e : Nat) : Acc := Map.get Acc.init x.acc (sl * 128 + bk * 32 + e)

/-- Writes an accumulator element. -/
def Core.wrAcc (x : Core) (sl bk e : Nat) (v : Acc) : Core :=
  { x with acc := Map.set Acc.init x.acc (sl * 128 + bk * 32 + e) v }

/-- Marks a bank as written by the running block (R99). -/
def Core.touchBank (x : Core) (sl bk : Nat) : Core :=
  { x with banks := if (sl * 4 + bk) ∈ x.banks then x.banks else x.banks ++ [sl * 4 + bk] }

/-- Whether the predicate lets an instruction execute (R165). -/
def Core.pred (x : Core) (w : Nat) : Bool := x.rdP (bits w 25 23) != bit w 22

/-! ### Lanes (R101) -/

/-- Lane `i` of a vector register. -/
def VReg.lane (v : VReg) (i : Nat) : Nat := elemBits 32 v.bits.toNat i

/-- The poison mark of lane `i`. -/
def VReg.psn (v : VReg) (i : Nat) : Bool := v.poison.getLsbD i

/-- The sixteen lanes with their poison marks. -/
def VReg.lanes (v : VReg) : List (Nat × Bool) := (List.range 16).map (fun i => (v.lane i, v.psn i))

/-- A mask of the set marks of a list. -/
def maskOf : List Bool → Nat
  | [] => 0
  | b :: t => b2n b + 2 * maskOf t

/-- A vector register of sixteen lanes. -/
def VReg.ofLanes (l : List (Nat × Bool)) : VReg :=
  { bits := BitVec.ofNat 512 (packBits 32 (l.map (·.1))), poison := BitVec.ofNat 16 (maskOf (l.map (·.2))) }

/-- Bits of a poison mask. -/
def wordBits (p : BitVec 16) (hi lo : Nat) : Nat := bits p.toNat hi lo

/-- The codeword state that a poison mark gives. -/
def Cw.ofPoison (p : Bool) : Cw := if p then .poison else .clean

/-- The slot that lanes 8h to 8h + 7 of a register fill; a codeword with a poisoned lane is poisoned. -/
def VReg.slot (v : VReg) (h : Nat) : Slot :=
  { data := BitVec.ofNat 256 (v.bits.toNat >>> (256 * h)),
    lo := Cw.ofPoison (wordBits v.poison (8 * h + 3) (8 * h) != 0),
    hi := Cw.ofPoison (wordBits v.poison (8 * h + 7) (8 * h + 4) != 0) }

/-- The eight lanes of a slot, four to a codeword (R175, R198). -/
def Slot.lanes (x : Slot) : List (Nat × Bool) :=
  (List.range 8).map (fun i => (elemBits 32 x.data.toNat i, (if i < 4 then x.lo else x.hi) == .poison))

/-! ### Core store (R74-R79, R174) -/

abbrev FaultCode.illegal : Nat := 0x01
abbrev FaultCode.storeRange : Nat := 0x02
abbrev FaultCode.misalign : Nat := 0x03
abbrev FaultCode.spillAccess : Nat := 0x04
abbrev FaultCode.portUnnamed : Nat := 0x05
abbrev FaultCode.galleyUnnamed : Nat := 0x06
abbrev FaultCode.msgSize : Nat := 0x07
abbrev FaultCode.doubleSend : Nat := 0x08
abbrev FaultCode.steerToken : Nat := 0x09
abbrev FaultCode.poisonConsumed : Nat := 0x0A
abbrev FaultCode.istoreUncorr : Nat := 0x0B
abbrev FaultCode.residue : Nat := 0x0C
abbrev FaultCode.checker : Nat := 0x0D
abbrev FaultCode.tbuf : Nat := 0x0E

/-- The queues, and the units of CS_FAULT (R70, R118). -/
abbrev Unit.scalar : Nat := 0
abbrev Unit.vector : Nat := 1
abbrev Unit.product : Nat := 2
abbrev Unit.steering : Nat := 3
abbrev Unit.commit : Nat := 4

/-- Whether a range of core store meets a spill range (R79): an access that begins outside one and reaches into it does (log 83,
DESIGN CHOICE). -/
def Core.inSpill (x : Core) (addr size : Nat) : Bool :=
  x.spill.any (fun r => decide (0 < r.2 ∧ addr < r.1 + r.2 ∧ r.1 < addr + size))

/-- The address checks of R174 for an access of `size` bytes. -/
def Cx.checkAddr (x : Cx) (addr size align unit : Nat) : Cx :=
  if addr ≥ 0x40000 then x.halt FaultCode.storeRange addr unit
  else if addr % align ≠ 0 then x.halt FaultCode.misalign addr unit
  else if addr + size > 0x40000 then x.halt FaultCode.storeRange 0x40000 unit
  else if x.core.inSpill addr size then x.halt FaultCode.spillAccess addr unit
  else x

/-- A 32-bit address sum of a register and a scaled signed immediate (R174). -/
def effAddr (base : Word) (imm scale : Nat) : Nat :=
  ofInt ((base.toNat : Int) + sext imm 12 * (scale : Int)) 32

/-- Bytes of a codeword, merged under a mask of the bytes taken from `new`. -/
def mergeBytes (old new mask : Nat) : Nat → Nat
  | 0 => 0
  | n + 1 =>
    (if mask % 2 = 1 then new % 256 else old % 256) + 256 * mergeBytes (old / 256) (new / 256) (mask / 2) n

/-- What reading a stored codeword leaves: correctable is corrected, uncorrectable is poisoned (R78). -/
def Cw.read (c : Cw) : Cw :=
  match c with
  | .correctable => .clean
  | .uncorrectable => .poison
  | c => c

/-- Reports what reading a codeword found (R78). -/
def Cx.noteCw (x : Cx) (c : Cw) (mem loc : Nat) : Cx :=
  match c with
  | .correctable => x.foundCorrectable mem loc
  | .uncorrectable => x.report (.uncorrected mem loc)
  | _ => x

/-- A codeword's value and state after one write: all of it, or the bytes of the mask in a read-modify-write that keeps its state
(R77, R78). -/
def UWrite.apply (v : Nat × Cw) (w : UWrite) : Nat × Cw :=
  if w.mask = 0xFFFF then (w.value % 2 ^ 128, w.st) else (mergeBytes v.1 w.value w.mask 16, v.2)

/-- A codeword's value and state once its first `n` unordered writes have applied. -/
def Unfenced.after (e : Unfenced) (n : Nat) : Nat × Cw := (e.writes.take n).foldl UWrite.apply (e.base, e.baseCw)

/-- How many writes apply before a queue's later access may: those up to the queue's own last one, for accesses of one queue complete
in order (R74). -/
def Unfenced.own (e : Unfenced) (q : Nat) : Nat :=
  e.writes.length - (e.writes.reverse.takeWhile (fun w => w.queue != q)).length

/-- An entry with the state of its codeword changed, whichever writes have applied. -/
def Unfenced.mapCw (e : Unfenced) (f : Cw → Cw) : Unfenced :=
  { e with baseCw := f e.baseCw, writes := e.writes.map (fun w => { w with st := f w.st }) }

/-- The unordered writes of a codeword. -/
def Core.unfencedAt (x : Core) (cw : Nat) : Option Unfenced := x.unfenced.find? (fun e => e.cw == cw)

/-- Replaces the unordered writes of a codeword; with none left it needs no entry. -/
def Core.putUnfenced (x : Core) (e : Unfenced) : Core :=
  let rest := x.unfenced.filter (fun d => d.cw != e.cw)
  { x with unfenced := if e.writes.isEmpty then rest else rest ++ [e] }

/-- A core-store codeword as it stands once every write has applied: its 128 bits and its state. -/
def Core.cwNow (x : Core) (cw : Nat) : Nat × Cw := (ofLe (x.store.readN (cw * 16) 16), Map.get Cw.clean x.ecc cw)

/-- Puts a codeword into the core store. -/
def Core.putCw (x : Core) (cw : Nat) (v : Nat × Cw) : Core :=
  { x with store := x.store.writeN (cw * 16) (le v.1 16), ecc := Map.set Cw.clean x.ecc cw v.2 }

/-- A core-store codeword that no unordered write touches, read, corrected in place and reported (R78, R103). -/
def Cx.readOrdered (x : Cx) (cw : Nat) : Nat × Bool × Cx :=
  let v := x.core.cwNow cw
  let y := if v.2.read = v.2 then x else
    (x.mapCore (fun c => { c with ecc := Map.set Cw.clean c.ecc cw v.2.read })).noteCw v.2 0 (cw * 16)
  (v.1, v.2.read == .poison, y.foundPoison (v.2.read == .poison))

/-- Reads a core-store codeword for a queue: its 128 bits and its poison (R74, R78, R103).  Where writes of the block are
unordered, the read comes after its own queue's and after a free number of the others (log 20, DESIGN CHOICE); those it has seen have
applied, and what it finds is corrected and reported. -/
def Cx.readCw (x : Cx) (q cw : Nat) : Nat × Bool × Cx :=
  match x.core.unfencedAt cw with
  | none => x.readOrdered cw
  | some e =>
    let k := e.own q + Config.freeNat x.free % (e.writes.length - e.own q + 1)
    let v := e.after k
    let st := v.2.read
    let rest := e.writes.drop k
    let d : Unfenced := { e with base := v.1, baseCw := st, writes := rest }
    let y := { x with free := x.free + 1 }.mapCore (fun c => (c.putUnfenced d).putCw cw (d.after rest.length))
    let y := y.noteCw v.2 0 (cw * 16)
    (v.1, st == .poison, y.foundPoison (st == .poison))

/-- A write of part of a codeword reads it first: what it finds is corrected and reported (R77, R78). -/
def Cx.readModify (x : Cx) (cw : Nat) : Cx :=
  let st := (x.core.cwNow cw).2
  if st.read = st then x
  else (x.mapCore (fun c => { c with
    ecc := Map.set Cw.clean c.ecc cw st.read
    unfenced := c.unfenced.map (fun e => if e.cw = cw then e.mapCw Cw.read else e) })).noteCw st 0 (cw * 16)

/-- Writes the bytes of a mask into a core-store codeword for a queue: it applies after its own queue's writes and, among the other
queues', at a free place (R74, R77, R78; log 20, DESIGN CHOICE). -/
def Cx.writeCw (x : Cx) (q cw value mask : Nat) (st : Cw) : Cx :=
  let x := if mask = 0xFFFF then x else x.readModify cw
  let now := x.core.cwNow cw
  let e := (x.core.unfencedAt cw).getD { cw := cw, base := now.1, baseCw := now.2, writes := [] }
  let n := e.writes.length
  let k := if e.own q = n then n else e.own q + Config.freeNat x.free % (n - e.own q + 1)
  let w : UWrite := { queue := q, mask := mask, value := value, st := st }
  let d := { e with writes := e.writes.take k ++ w :: e.writes.drop k }
  { x with free := if e.own q = n then x.free else x.free + 1 }.mapCore (fun c =>
    (c.putUnfenced d).putCw cw (d.after (n + 1)))

/-- Reads consecutive codewords: lanes with poison marks, four to a codeword. -/
def Cx.readCws (x : Cx) (q cw : Nat) : Nat → List (Nat × Bool) × Cx
  | 0 => ([], x)
  | n + 1 =>
    let r := x.readCw q cw
    let t := r.2.2.readCws q (cw + 1) n
    ((List.range 4).map (fun i => (elemBits 32 r.1 i, r.2.1)) ++ t.1, t.2)

/-- Writes lanes as whole codewords, four lanes to each; a codeword with a poisoned lane is poisoned. -/
def Cx.writeCws (x : Cx) (q cw : Nat) : List (Nat × Bool) → Nat → Cx
  | _, 0 => x
  | l, n + 1 =>
    let c := l.take 4
    (x.writeCw q cw (packBits 32 (c.map (·.1))) 0xFFFF (Cw.ofPoison (c.any (·.2)))).writeCws q (cw + 1) (l.drop 4) n

/-! ### Galley heads (R60, R61, R198, R210-R218) -/

/-- Slots of a class by its size code (R210). -/
def sizeCode (v : Nat) : Nat := if v = 7 then 0 else 2 ^ (v + 3)

/-- The size of class `c` of a galley (R234). -/
def Galley.size (g : Galley) (c : Nat) : Nat := sizeCode (wordAt g.geo (11 + 3 * c) (9 + 3 * c))

/-- The first queue-memory slot of class `c` (R210). -/
def Galley.base (g : Galley) (c : Nat) : Nat :=
  (List.range c).foldl (fun b i => b + g.size i) (wordAt g.geo 8 0)

/-- The item that a combining entry becomes, with given slots (R220, R221). -/
def Entry.item (e : Entry) (slots : List Slot) : Item := { msg := { e.owner with slots := slots }, pos := e.pos }

/-- The queue-memory slot of slot `n` of an item. -/
def Galley.slotOf (g : Galley) (i : Item) (n : Nat) : Nat :=
  g.base i.msg.cls + (if g.size i.msg.cls = 0 then 0 else (i.pos + n) % g.size i.msg.cls)

/-- A galley of a core. -/
def Core.galley (x : Core) (g : Nat) : Galley := Map.get Galley.init x.galleys g

/-- A core with a galley changed. -/
def Core.updGalley (x : Core) (g : Nat) (f : Galley → Galley) : Core :=
  { x with galleys := Map.upd Galley.init x.galleys g f }

/-- The fixed head of a galley that the running block names. -/
def Core.head (x : Core) (g : Nat) : Option Item := (x.heads.find? (fun h => h.1 == g)).map (·.2)

/-- Replaces slot `n` of a message. -/
def Msg.putSlot (m : Msg) (n : Nat) (s : Slot) : Msg := { m with slots := m.slots.set n s }

/-- Replaces slot `n` of an item wherever the core holds it. -/
def Core.putItemSlot (x : Core) (g : Nat) (i : Item) (n : Nat) (s : Slot) : Core :=
  let fix (j : Item) : Item :=
    if j.pos = i.pos ∧ j.msg.cls = i.msg.cls then { j with msg := j.msg.putSlot n s } else j
  { x.updGalley g (fun y => { y with items := y.items.map fix }) with
    heads := x.heads.map (fun h => if h.1 = g then (h.1, fix h.2) else h) }

/-- Reads slot `n` of an item of a galley, corrected in place; bytes beyond the item read as zero (R78, R186, R198). -/
def Cx.readSlot (x : Cx) (g : Nat) (i : Item) (n : Nat) : Slot × Cx :=
  match i.msg.slots[n]? with
  | none => (zeroSlot, x)
  | some s =>
    let q := (x.core.galley g).slotOf i n * 2
    let s' : Slot := { s with lo := s.lo.read, hi := s.hi.read }
    let y := (x.noteCw s.lo 2 q).noteCw s.hi 2 (q + 1)
    let y := if s' = s then y else y.mapCore (fun c => c.putItemSlot g i n s')
    (s', y.foundPoison s'.poisoned)

/-- Reads consecutive slots of an item as lanes, each codeword's poison in its own four. -/
def Cx.readSlots (x : Cx) (g : Nat) (i : Item) (n : Nat) : Nat → List (Nat × Bool) × Cx
  | 0 => ([], x)
  | k + 1 =>
    let r := x.readSlot g i n
    let t := r.2.readSlots g i (n + 1) k
    (r.1.lanes ++ t.1, t.2)

/-- Gives the fixed head of a galley to `f`, or stops the core with GALLEY_UNNAMED (R198). -/
def Cx.withHead (x : Cx) (g unit : Nat) (f : Item → Cx) : Cx :=
  match x.core.head g with
  | none => x.halt FaultCode.galleyUnnamed g unit
  | some i => f i

/-! ### Operand streams of the product engine (R185-R187) -/

/-- Sixteen-lane registers one after another. -/
def Core.vregs (x : Core) (r : Nat) : Nat → List (Nat × Bool)
  | 0 => []
  | n + 1 => (x.rdV r).lanes ++ x.vregs (r + 1) n

/-- Element `p` of a stream of lanes at width `w`, with its poison mark; past the end it is zero. -/
def streamElem (l : List (Nat × Bool)) (w p : Nat) : Nat × Bool :=
  let e := l.getD (p * w / 32) (0, false)
  (elemBits w e.1 (p % (32 / w)), e.2)

/-- The half of the transposing buffer. -/
def Core.half (x : Core) (h : Nat) : Half := if h = 0 then x.h0 else x.h1

/-- A core with a half changed. -/
def Core.setHalf (x : Core) (h : Nat) (v : Half) : Core := if h = 0 then { x with h0 := v } else { x with h1 := v }

/-- The element at a row and column of a half, with its poison mark (R80). -/
def Half.elem (h : Half) (w row col : Nat) : Nat × Bool :=
  let r := Map.get VReg.init h.data row
  (elemBits w r.bits.toNat col, r.psn (col * w / 32))

end Sys2Proof.Machine
end

