-- ==== Sys2Proof/Machine/Sha256.lean ====
section
/-! DEFINITION. SHA-256 (R529, R541, R549, R568-R573) as FIPS 180-4 gives it (log 10, PRESUMED), and the polynomial digest of
R550. -/

namespace Sys2Proof.Machine

/-- The round constants: the first 32 fraction bits of the cube roots of the first 64 primes. -/
def shaK : List Nat :=
  [0x428a2f98, 0x71374491, 0xb5c0fbcf, 0xe9b5dba5, 0x3956c25b, 0x59f111f1, 0x923f82a4, 0xab1c5ed5]
   ++ [0xd807aa98, 0x12835b01, 0x243185be, 0x550c7dc3, 0x72be5d74, 0x80deb1fe, 0x9bdc06a7, 0xc19bf174]
   ++ [0xe49b69c1, 0xefbe4786, 0x0fc19dc6, 0x240ca1cc, 0x2de92c6f, 0x4a7484aa, 0x5cb0a9dc, 0x76f988da]
   ++ [0x983e5152, 0xa831c66d, 0xb00327c8, 0xbf597fc7, 0xc6e00bf3, 0xd5a79147, 0x06ca6351, 0x14292967]
   ++ [0x27b70a85, 0x2e1b2138, 0x4d2c6dfc, 0x53380d13, 0x650a7354, 0x766a0abb, 0x81c2c92e, 0x92722c85]
   ++ [0xa2bfe8a1, 0xa81a664b, 0xc24b8b70, 0xc76c51a3, 0xd192e819, 0xd6990624, 0xf40e3585, 0x106aa070]
   ++ [0x19a4c116, 0x1e376c08, 0x2748774c, 0x34b0bcb5, 0x391c0cb3, 0x4ed8aa4a, 0x5b9cca4f, 0x682e6ff3]
   ++ [0x748f82ee, 0x78a5636f, 0x84c87814, 0x8cc70208, 0x90befffa, 0xa4506ceb, 0xbef9a3f7, 0xc67178f2]

/-- The initial hash value: the first 32 fraction bits of the square roots of the first 8 primes. -/
def shaInit : List Nat := [0x6a09e667, 0xbb67ae85, 0x3c6ef372, 0xa54ff53a, 0x510e527f, 0x9b05688c, 0x1f83d9ab, 0x5be0cd19]

/-- Rotates a 32-bit number right. -/
def ror32 (x n : Nat) : Nat := (x >>> n) ||| ((x <<< (32 - n)) % 2 ^ 32)

/-- The number that four big-endian bytes hold. -/
def be32 (b : Bytes) : Nat := (b.take 4).foldl (fun a x => a * 256 + x.toNat) 0

/-- A number as four big-endian bytes. -/
def toBe32 (n : Nat) : Bytes := (le n 4).reverse

/-- The sixteen words of a block. -/
def shaWords : Nat → Bytes → List Nat
  | 0, _ => []
  | n + 1, b => be32 b :: shaWords n (b.drop 4)

/-- One round: the message schedule window moves by one word and the eight working variables turn. -/
def shaRound (k : Nat) (win st : List Nat) : List Nat × List Nat :=
  match win, st with
  | w0 :: w, [a, b, c, d, e, f, g, h] =>
    let m := 2 ^ 32
    let s1 := ror32 e 6 ^^^ ror32 e 11 ^^^ ror32 e 25
    let ch := (e &&& f) ^^^ ((m - 1 - e) &&& g)
    let t1 := (h + s1 + ch + k + w0) % m
    let s0 := ror32 a 2 ^^^ ror32 a 13 ^^^ ror32 a 22
    let mj := (a &&& b) ^^^ (a &&& c) ^^^ (b &&& c)
    let x := w.getD 0 0
    let y := w.getD 13 0
    let g0 := ror32 x 7 ^^^ ror32 x 18 ^^^ (x >>> 3)
    let g1 := ror32 y 17 ^^^ ror32 y 19 ^^^ (y >>> 10)
    (w ++ [(w0 + g0 + w.getD 8 0 + g1) % m], [(t1 + s0 + mj) % m, a, b, c, (d + t1) % m, e, f, g])
  | w, s => (w, s)

/-- The rounds of one block. -/
def shaRounds : List Nat → List Nat → List Nat → List Nat
  | [], _, st => st
  | k :: t, win, st =>
    let r := shaRound k win st
    shaRounds t r.1 r.2

/-- The hash value after `n` blocks. -/
def shaBlocks : Nat → Bytes → List Nat → List Nat
  | 0, _, h => h
  | n + 1, b, h =>
    let r := shaRounds shaK (shaWords 16 b) h
    shaBlocks n (b.drop 64) (List.zipWith (fun x y => (x + y) % 2 ^ 32) h r)

/-- SHA-256 of a byte string: 32 bytes. -/
def sha256 (b : Bytes) : Bytes :=
  let z := (119 - b.length % 64) % 64
  let p := b ++ [0x80] ++ zeros z ++ (le (8 * b.length) 8).reverse
  (shaBlocks (p.length / 64) p shaInit).flatMap toBe32

/-- One bit of the digest of R550 into its 64-bit register. -/
def crcBit (r : Nat) (b : Bool) : Nat :=
  let x := (r * 2) % 2 ^ 64
  if r.testBit 63 != b then x ^^^ 0x42F0E1EBA9EA3693 else x

/-- One byte of the digest, most significant bit first. -/
def crcByte (r : Nat) (x : Byte) : Nat :=
  [7, 6, 5, 4, 3, 2, 1, 0].foldl (fun q i => crcBit q (x.getLsbD i)) r

/-- The digest register before any slot. -/
def crcInit : Nat := 2 ^ 64 - 1

/-- The digest register after a slot. -/
def crcSlot (r : Nat) (s : Slot) : Nat := s.bytes.foldl crcByte r

/-- The digest that a register gives. -/
def crcOut (r : Nat) : Nat := r ^^^ (2 ^ 64 - 1)

end Sys2Proof.Machine
end

