-- ==== Sys2Proof/Machine/Ops.lean ====
section
/-! DEFINITION. The named operations over the state: units by number, wafer geometry and absence, host memory, records,
the hellbox, and the fault of a forme. -/

namespace Sys2Proof.Machine

/-! ### Units by number -/

def State.core (s : State) (c : Nat) : Core := Map.get Core.init s.cores c
def State.setCore (s : State) (c : Nat) (x : Core) : State := { s with cores := Map.set Core.init s.cores c x }
def State.updCore (s : State) (c : Nat) (f : Core → Core) : State := s.setCore c (f (s.core c))
def State.router (s : State) (c : Nat) : Router := Map.get Router.init s.routers c
def State.setRouter (s : State) (c : Nat) (x : Router) : State :=
  { s with routers := Map.set Router.init s.routers c x }
def State.updRouter (s : State) (c : Nat) (f : Router → Router) : State := s.setRouter c (f (s.router c))
def State.cluster (s : State) (k : Nat) : Cluster := Map.get Cluster.init s.clusters k
def State.setCluster (s : State) (k : Nat) (x : Cluster) : State :=
  { s with clusters := Map.set Cluster.init s.clusters k x }
def State.updCluster (s : State) (k : Nat) (f : Cluster → Cluster) : State := s.setCluster k (f (s.cluster k))
def State.field (s : State) (n : Nat) : Field := Map.get Field.init s.fields n
def State.setField (s : State) (n : Nat) (x : Field) : State := { s with fields := Map.set Field.init s.fields n x }
def State.updField (s : State) (n : Nat) (f : Field → Field) : State := s.setField n (f (s.field n))
def State.forme (s : State) (n : Nat) : Forme := Map.get Forme.init s.formes n
def State.setForme (s : State) (n : Nat) (x : Forme) : State := { s with formes := Map.set Forme.init s.formes n x }
def State.updForme (s : State) (n : Nat) (f : Forme → Forme) : State := s.setForme n (f (s.forme n))
def State.station (s : State) (n : Nat) : Station := Map.get Station.init s.stations n
def State.setStation (s : State) (n : Nat) (x : Station) : State :=
  { s with stations := Map.set Station.init s.stations n x }
def State.updStation (s : State) (n : Nat) (f : Station → Station) : State := s.setStation n (f (s.station n))
def State.fport (s : State) (n : Nat) : FPort := Map.get FPort.init s.fports n
def State.setFport (s : State) (n : Nat) (x : FPort) : State := { s with fports := Map.set FPort.init s.fports n x }
def State.updFport (s : State) (n : Nat) (f : FPort → FPort) : State := s.setFport n (f (s.fport n))
def State.bay (s : State) (n : Nat) : Bay := Map.get Bay.init s.bays n
def State.setBay (s : State) (n : Nat) (x : Bay) : State := { s with bays := Map.set Bay.init s.bays n x }
def State.updBay (s : State) (n : Nat) (f : Bay → Bay) : State := s.setBay n (f (s.bay n))
def State.ring (s : State) (n : Nat) : Ring := Map.get Ring.init s.rings n
def State.setRing (s : State) (n : Nat) (x : Ring) : State := { s with rings := Map.set Ring.init s.rings n x }
def State.updRing (s : State) (n : Nat) (f : Ring → Ring) : State := s.setRing n (f (s.ring n))

/-- A free value, and the state after the draw (log 1, DESIGN CHOICE). -/
def State.draw (s : State) : Nat × State := (Config.freeNat s.free, { s with free := s.free + 1 })

/-- Applies an operation for each number of a list. -/
def State.forAll {α : Type} (s : State) (l : List α) (f : State → α → State) : State := l.foldl f s

/-! ### Wafer geometry (R6, R21-R29, R109) -/

def coreX (c : Nat) : Nat := c % 512
def coreY (c : Nat) : Nat := c / 512
def coreAt (x y : Nat) : Nat := x + 512 * y
def clusterAt (cx cy : Nat) : Nat := cx + 128 * cy
def clusterOf (c : Nat) : Nat := clusterAt (coreX c / 4) (coreY c / 4)
def fieldAt (fx fy : Nat) : Nat := fy * 8 + fx
def fieldOf (c : Nat) : Nat := fieldAt (coreX c / 64) (coreY c / 64)
def clusterField (k : Nat) : Nat := fieldAt (k % 128 / 16) (k / 128 / 16)
def columnKey (c : Nat) : Nat := fieldOf c * 64 + coreX c % 64

/-- The sixteen cores of a cluster, in ascending y, then x. -/
def clusterCores (k : Nat) : List Nat :=
  (List.range 16).map (fun i => coreAt (4 * (k % 128) + i % 4) (4 * (k / 128) + i / 4))

/-- The clusters of a field. -/
def fieldClusters (f : Nat) : List Nat :=
  (List.range 256).map (fun i => clusterAt (f % 8 * 16 + i % 16) (f / 8 * 16 + i / 16))

/-- The neighbour that feeds input `i` of a cluster, none for the repeater ring: 0 toward the nearer west or east edge of its field, 1
toward the nearer north or south edge (R456). -/
def refSource (k i : Nat) : Option Nat :=
  let at' := if i = 0 then k % 16 else k / 128 % 16
  let step := if i = 0 then 1 else 128
  if at' = 0 ∨ at' = 15 then none else if at' < 8 then some (k - step) else some (k + step)

/-- The clusters of a rectangle, in ascending cy, then cx. -/
def rectClusters (cx0 cy0 cx1 cy1 : Nat) : List Nat :=
  (List.range (cy1 + 1 - cy0)).flatMap (fun j => (List.range (cx1 + 1 - cx0)).map (fun i => clusterAt (cx0 + i) (cy0 + j)))

/-- The cores of a rectangle of cores, in ascending y, then x. -/
def rectCores (x0 y0 x1 y1 : Nat) : List Nat :=
  (List.range (y1 + 1 - y0)).flatMap (fun j => (List.range (x1 + 1 - x0)).map (fun i => coreAt (x0 + i) (y0 + j)))

/-- The four clusters that a station adjoins (R29). -/
def stationClusters (n : Nat) : List Nat :=
  let f := n / 8
  let k := n % 8
  let cx := f % 8 * 16 + (if k < 4 then 0 else 15)
  (List.range 4).map (fun i => clusterAt cx (f / 8 * 16 + 4 * (k % 4) + i))

/-- The physical row of logical row `r` where the dead rows are given: the (r+1)-th live site (R23). -/
def siteOf (dead : List Nat) (r : Nat) : Nat := ((List.range 66).filter (fun p => !dead.contains p)).getD r 66

/-! ### Absence (R23-R28, R42-R54) -/

/-- The dead rows of a column in hellbox entries. -/
def deadRows (hb : List HbEntry) (key : Nat) : List Nat :=
  ((hb.filter (fun e => decide (e.kind = 1 ∧ e.field * 64 + e.col = key))).map (·.row)).eraseDups

/-- Whether a cluster is retired in hellbox entries. -/
def retiredIn (hb : List HbEntry) (k : Nat) : Bool :=
  hb.any (fun e => decide (e.kind = 3 ∧ e.field = clusterField k ∧ e.col = k % 128 % 16 ∧ e.row = k / 128 % 16))

/-- Whether the enablement record enables a field. -/
def State.fieldEnabled (s : State) (f : Nat) : Bool :=
  match s.enable with
  | none => false
  | some e => e.fields.testBit f

/-- Whether a field is present: enabled and not dark (R42). -/
def State.fieldPresent (s : State) (f : Nat) : Bool := s.fieldEnabled f && !(s.field f).dark

/-- Whether a memory station is present; those of a dark field stay present (R53). -/
def State.stationPresent (s : State) (n : Nat) : Bool := decide (n < 448) && s.fieldEnabled (n / 8)

/-- Whether a feeder port is present. -/
def State.portPresent (s : State) (p : Nat) : Bool :=
  match s.enable with
  | none => false
  | some e => e.ports.testBit p

/-- Whether a host bay is present: it carries a die and is enabled. -/
def State.bayPresent (s : State) (b : Nat) : Bool :=
  match s.enable with
  | none => false
  | some e => e.bays.testBit b && (s.bay b).die

/-- The field of a feeder port's attachment (R31). -/
def portField (p : Nat) : Nat := if p < 8 then p else 40 + p

/-- Whether the rectangle of a forme that is not EMPTY contains cores of a column (R26). -/
def Forme.holdsColumn (f : Forme) (key : Nat) : Bool :=
  let field := key / 64
  let x := field % 8 * 64 + key % 64
  decide (f.state ≠ 0 ∧ 4 * f.cx0 ≤ x ∧ x ≤ 4 * f.cx1 + 3 ∧ 4 * f.cy0 < field / 8 * 64 + 64 ∧ field / 8 * 64 ≤ 4 * f.cy1 + 3)

/-- Whether some open forme, other than `but`, holds a column. -/
def State.columnHeld (s : State) (key but : Nat) : Bool :=
  s.formes.any (fun e => decide (e.1 ≠ but) && e.2.holdsColumn key)

/-- The dead rows in force of a column (R26). -/
def State.column (s : State) (key : Nat) : List Nat := Map.get [] s.columns key

/-- The dead rows of a column as an OPEN_FORME now would take them (R26, R42). -/
def State.columnNow (s : State) (key : Nat) : List Nat :=
  if s.columnHeld key 64 then s.column key else deadRows s.hellbox key

/-- Whether a core is present, given the fields, the column's dead rows and the hellbox entries that count. -/
def presentBy (field : Bool) (col : List Nat) (hb : List HbEntry) (c : Nat) : Bool :=
  field && decide (col.length ≤ 2) && !(deadRows hb (columnKey c)).contains (siteOf col (coreY c % 64))
    && !retiredIn hb (clusterOf c)

/-- Whether a core is present in the absence map (R42). -/
def State.present (s : State) (c : Nat) : Bool :=
  presentBy (s.fieldPresent (fieldOf c)) (s.columnNow (columnKey c)) s.hellbox c

/-- Whether a core is present in a forme's view of absence (R49, R51, R52). -/
def State.presentIn (s : State) (f c : Nat) : Bool :=
  let x := s.forme f
  presentBy (x.viewFields.testBit (fieldOf c) && !(s.field (fieldOf c)).dark) (s.column (columnKey c))
    (s.hellbox.take x.viewHb) c

/-- Whether the core's site has died since its column's state was fixed (R24, R253). -/
def State.died (s : State) (c : Nat) : Bool :=
  (deadRows s.hellbox (columnKey c)).contains (siteOf (s.column (columnKey c)) (coreY c % 64))

/-- Whether a cluster is present in a forme's view (R28). -/
def State.clusterPresentIn (s : State) (f k : Nat) : Bool := (clusterCores k).any (s.presentIn f)

/-- Whether a cluster is present in the absence map (R28). -/
def State.clusterPresent (s : State) (k : Nat) : Bool := (clusterCores k).any s.present

/-- The clusters of a forme's rectangle. -/
def Forme.clusters (f : Forme) : List Nat := if f.state = 0 then [] else rectClusters f.cx0 f.cy0 f.cx1 f.cy1

/-- The cores of a forme's rectangle, in ascending y, then x. -/
def Forme.coreList (f : Forme) : List Nat :=
  if f.state = 0 then [] else rectCores (4 * f.cx0) (4 * f.cy0) (4 * f.cx1 + 3) (4 * f.cy1 + 3)

/-- Whether a core lies in a forme's rectangle. -/
def Forme.covers (f : Forme) (c : Nat) : Bool :=
  decide (f.state ≠ 0 ∧ 4 * f.cx0 ≤ coreX c ∧ coreX c ≤ 4 * f.cx1 + 3 ∧ 4 * f.cy0 ≤ coreY c ∧ coreY c ≤ 4 * f.cy1 + 3)

/-- The present cores of a forme. -/
def State.formeCores (s : State) (f : Nat) : List Nat := (s.forme f).coreList.filter (s.presentIn f)

/-- The forme that holds a core's cluster (R255). -/
def State.formeOf (s : State) (c : Nat) : Option Nat := (s.cluster (clusterOf c)).forme

/-! ### Device states (R400, R430) -/

abbrev Dev.bootRom : Nat := 0
abbrev Dev.awaitHost : Nat := 1
abbrev Dev.bringup : Nat := 2
abbrev Dev.test : Nat := 3
abbrev Dev.ready : Nat := 4
abbrev Dev.degraded : Nat := 5
abbrev Dev.failed : Nat := 6

/-- Whether the device is READY or DEGRADED. -/
def State.operating (s : State) : Bool := decide (s.regs.devState = Dev.ready ∨ s.regs.devState = Dev.degraded)

/-- Sets a STATUS_FLAGS bit and counts the set (R11, R407). -/
def State.setStatus (s : State) (b : Nat) : State :=
  { s with regs := { s.regs with
      flags := s.regs.flags ||| BitVec.ofNat 32 (2 ^ b), flagsCnt := addSat32 s.regs.flagsCnt 1 } }

/-- Whether a helper is clocked (R397). -/
def State.helperOn (s : State) (n : Nat) : Bool := s.regs.helperEn.getLsbD n

/-! ### Host memory (R387-R390) -/

/-- The byte of host memory at an address: what the host or the device stored last, else a free byte (log 2, DESIGN CHOICE). -/
def State.hostByte (s : State) (a : Nat) : Byte :=
  match s.hostMem.find? (fun e => e.1 == a) with
  | some e => e.2
  | none => Config.hostByte a

/-- Bytes of host memory. -/
def State.hostRead (s : State) (a : Nat) : Nat → Bytes
  | 0 => []
  | n + 1 => s.hostByte a :: s.hostRead (a + 1) n

/-- A number in host memory. -/
def State.hostNat (s : State) (a n : Nat) : Nat := ofLe (s.hostRead a n)

/-- Stores bytes in host memory: poison marks every line touched, and clean bytes clear the lines that they cover wholly
(R390, log 2, DESIGN CHOICE). -/
def State.hostPut (s : State) (a : Nat) (b : Bytes) (psn : Bool) : State :=
  let lines := (List.range ((a % 64 + b.length + 63) / 64)).map (fun i => a / 64 + i)
  let covered (l : Nat) : Bool := decide (a ≤ 64 * l ∧ 64 * l + 64 ≤ a + b.length)
  { s with
    hostMem := s.hostMem.putN a b
    hostPoison := if psn then s.hostPoison ++ lines.filter (fun l => !s.hostPoison.contains l)
      else s.hostPoison.filter (fun l => !covered l) }

/-- The stores that the host makes before or within a step. -/
def State.hostStores (s : State) (l : List HostStore) : State := s.forAll l (fun s h => s.hostPut h.addr h.data h.poison)

/-- Slots read from host memory; every codeword of a poisoned line carries poison (R390). -/
def State.hostSlots (s : State) (a : Nat) : Nat → List Slot
  | 0 => []
  | n + 1 =>
    let p := Cw.ofPoison (s.hostPoison.contains (a / 64))
    { slotOf (s.hostRead a 32) with lo := p, hi := p } :: s.hostSlots (a + 32) n

/-- Slots written to host memory: a line that holds any poisoned codeword is written as poisoned (R390). -/
def State.hostPutSlots (s : State) (a : Nat) (l : List Slot) : State :=
  let t := s.hostPut a (l.flatMap Slot.bytes) false
  let bad := (((List.range l.length).filter (fun i => (l.getD i zeroSlot).poisoned)).map (fun i => (a + 32 * i) / 64)).eraseDups
  { t with hostPoison := t.hostPoison ++ bad.filter (fun k => !t.hostPoison.contains k) }

/-! ### The management stream (R531-R544) -/

/-- What a record says (R531). -/
structure RecSpec where
  kind : Nat
  cls : Nat
  status : Nat
  code : Nat
  forme : Option Nat
  unitKind : Nat
  action : Nat
  flags : Nat
  unit : Nat
  detail : Bytes

/-- An event record of a class about a unit, with every other field zero. -/
def RecSpec.event (cls unitKind unit : Nat) (detail : Bytes) : RecSpec :=
  { kind := 0, cls := cls, status := 0, code := 0, forme := none, unitKind := unitKind, action := 0, flags := 0,
    unit := unit, detail := detail }

/-- The forme byte of a record. -/
def formeByte (f : Option Nat) : Nat :=
  match f with
  | none => 0
  | some n => 0x80 + n % 64

/-- The 64 bytes of a record with a seq and an mc (R531). -/
def RecSpec.bytes (r : RecSpec) (seq mc : Nat) : Bytes :=
  le seq 4 ++ le r.kind 1 ++ le r.cls 1 ++ le r.status 1 ++ le r.code 1 ++ le mc 8 ++ le (formeByte r.forme) 1
    ++ le r.unitKind 1 ++ le r.action 1 ++ le r.flags 1 ++ le r.unit 4 ++ zeros 8 ++ padTo r.detail 32

/-- Whether the management port carries traffic (R15, R537, R543). -/
def State.mgmtSends (s : State) : Bool := s.mgmt.portUp && s.helperOn 9 && s.mgmt.started

/-- The last `n` of a list. -/
def lastN {α : Type} (l : List α) (n : Nat) : List α := l.drop (l.length - n)

/-- The header of a management datagram (R538). -/
def Mgmt.header (m : Mgmt) (typ count : Nat) : Bytes :=
  le 0x504D 2 ++ le 1 1 ++ le typ 1 ++ le count 2 ++ zeros 2 ++ m.identity.take 8

/-- Sends a datagram to ff02::1, destination 0, and to each subscriber (R540). -/
def Mgmt.send (m : Mgmt) (b : Bytes) : Mgmt :=
  { m with out := m.out ++ (0, b) :: m.subscribers.map (fun d => (d, b)) }

/-- Sends one record (R539, R540). -/
def Mgmt.sendRecord (m : Mgmt) (r : Bytes) : Mgmt := m.send (m.header 1 1 ++ r)

/-- Whether the event ring has no room for a record. -/
def State.eventFull (s : State) : Bool :=
  let g := s.ring 72
  decide (g.state ≠ 0 ∧ (g.produced + 2 ^ 32 - g.consumed) % 2 ^ 32 ≥ 2 ^ (wordAt g.cfg 11 8 + 4))

/-- Adds a finished record to the chain, the buffer and the event ring's hold, and sends it where `sends` says so; EVTFULL is set when the
ring is full and this is the first record that it holds back (R541, R543, R452). -/
def State.chainWith (s : State) (sends : Bool) (b : Bytes) : State :=
  let m := s.mgmt
  let m := { m with
    seqNext := m.seqNext + 1
    chain := if m.seqNext = 0 then sha256 b else sha256 (m.chain ++ b)
    held := lastN (m.held ++ [({ bytes := b, sent := sends } : Rec)]) Config.heldRecords
    sinceCheck := if bytesAt b 4 1 = 3 then 0 else m.sinceCheck + 1
    evDropped := m.evDropped + (if m.evHold.length ≥ Config.heldRecords then 1 else 0)
    evHold := lastN (m.evHold ++ [b]) Config.heldRecords }
  let first := s.mgmt.evHold.isEmpty
  let s := { s with mgmt := if sends then m.sendRecord b else m }
  if first && s.eventFull then s.setStatus 6 else s

/-- Adds a finished record, which goes out at once when the management port carries traffic (R15). -/
def State.chainBytes (s : State) (b : Bytes) : State := s.chainWith s.mgmtSends b

/-- A record takes the next seq. -/
def State.chainRecord (s : State) (r : RecSpec) (mc : Nat) : State := s.chainBytes (r.bytes s.mgmt.seqNext mc)

/-- Posts a record: into the chain, or, before the chain has started, into the list that follows its start record
(R531, R541). -/
def State.post (s : State) (r : RecSpec) : State :=
  let d := s.draw
  let mc := d.1 % 2 ^ 64
  if s.mgmt.started then d.2.chainRecord r mc
  else { d.2 with mgmt := { d.2.mgmt with early := d.2.mgmt.early ++ [r.bytes 0 mc] } }

/-! ### The hellbox (R35-R41) -/

/-- The eight bytes of an entry (R36). -/
def HbEntry.bytes (e : HbEntry) : Bytes :=
  le e.kind 1 ++ le e.field 1 ++ le e.col 1 ++ le e.row 1 ++ le e.dir 1 ++ le e.origin 1 ++ zeros 2

/-- The entries of the additions part. -/
def State.additions (s : State) : List HbEntry := s.hellbox.filter (fun e => e.part == 1)

/-- Appends an entry, or keeps it when the additions are full, and posts HELLBOX_ADD (R40, R41). -/
def State.appendHb (s : State) (e : HbEntry) (forme : Option Nat) (unitKind unit : Nat) : State :=
  let full := decide (s.additions.length ≥ 4096)
  let e := { e with part := if full then 2 else 1 }
  let s := { s with hellbox := s.hellbox ++ [e], mapGen := s.mapGen + 1 }
  s.post { RecSpec.event Config.clsHellboxAdd unitKind unit (e.bytes ++ le s.additions.length 4) with
    forme := forme, flags := if full then 2 else 0 }

/-- The part's entry for a dead site, by the core that it hosts (R36). -/
def State.deadSite (s : State) (c origin : Nat) : HbEntry :=
  { kind := 1, field := fieldOf c, col := coreX c % 64, row := siteOf (s.column (columnKey c)) (coreY c % 64), dir := 0,
    origin := origin, part := 1 }

/-- The entry for a dead link port (R38). -/
def State.deadLink (s : State) (c dir origin : Nat) : HbEntry := { s.deadSite c origin with kind := 2, dir := dir }

/-- The entry for a retired cluster (R36). -/
def retiredEntry (k origin : Nat) : HbEntry :=
  { kind := 3, field := clusterField k, col := k % 128 % 16, row := k / 128 % 16, dir := 0, origin := origin, part := 1 }

/-! ### Corrected and uncorrectable errors (R510-R515, R535) -/

/-- Posts CORRECTED at the first correction of a unit's memory in a window, and counts the later ones (R535). -/
def State.noteCorrected (s : State) (unitKind unit mem loc : Nat) : State :=
  let key := (unitKind * 2 ^ 32 + unit) * 16 + mem
  let n := Map.get 0 s.mgmt.windows key
  let s := { s with mgmt := { s.mgmt with windows := Map.set 0 s.mgmt.windows key (n + 1) } }
  if n = 0 then
    s.post { RecSpec.event Config.clsCorrected unitKind unit (le mem 1 ++ zeros 7 ++ le loc 8 ++ le 1 4) with action := 1 }
  else s

/-- The containment mode of a forme, or CONTAINMENT_DEFAULT: true for RESET_DEVICE (R513). -/
def State.resetsFor (s : State) (f : Option Nat) : Bool :=
  match f with
  | some n => (s.forme n).resets
  | none => s.regs.resetDefault

/-- Posts UNCORRECTED under the mode that governs; under RESET_DEVICE the record goes to the head of the send queue and
the device waits to reset (R514, R515). -/
def State.noteUncorrected (s : State) (f : Option Nat) (unitKind unit mem loc action : Nat) : State :=
  let reset := s.resetsFor f
  let s := s.post { RecSpec.event Config.clsUncorrected unitKind unit (le mem 1 ++ zeros 7 ++ le loc 8) with
    forme := f, action := if reset then 3 else action }
  if reset then { s with mgmt := { s.mgmt with resetWait := true } } else s

/-- Whether a record is that of an error that resets the device: it goes to the head of the send queue (R515). -/
def urgent (b : Bytes) : Bool := decide (bytesAt b 4 2 = 256 * Config.clsUncorrected ∧ bytesAt b 18 1 = 3)

end Sys2Proof.Machine
end

