-- ==== Sys2Proof/Machine/Proof.lean ====
section
/-! DEFINITION. The proof recorder: records, digests and fingerprints (R546-R555). -/

namespace Sys2Proof.Machine

/-- Whether the proof recorder records: clocked, and the proof ring ACTIVE (R546). -/
def State.recording (s : State) : Bool := s.helperOn 10 && decide ((s.ring 74).state = 1)

/-- Whether the recorder's 1 MiB buffer is full (R452). -/
def State.proofFull (s : State) : Bool :=
  decide ((s.recorder.queue.map List.length).foldl (· + ·) 0 ≥ 2 ^ 20)

/-- Closes a record of a kind into the recorder's buffer; its seq is filled in when it is written (R547). -/
def State.proofRecord (s : State) (kind : Nat) (forme : Option Nat) (flags : Nat) (specific payload : Bytes) : State :=
  if s.recording then
    let d := s.draw
    let body := padTo specific 16 ++ payload
    let units := (16 + body.length + 31) / 32
    let b := le units 1 ++ le kind 1 ++ le (formeByte forme) 1 ++ le flags 1 ++ zeros 4 ++ le d.1 8 ++ body
    { d.2 with recorder := { d.2.recorder with queue := d.2.recorder.queue ++ [padTo b (units * 32)] } }
  else s

/-- The digest of slots (R550). -/
def slotDigest (l : List Slot) : Nat := crcOut (l.foldl crcSlot crcInit)

/-- The poisoned slots of a list. -/
def poisonedSlots (l : List Slot) : Nat := (l.filter (·.poisoned)).length

/-- A port-digest record over the slots of a transfer into the device (R551). -/
def State.portDigest (s : State) (unit source sub ref : Nat) (forme : Option Nat) (l : List Slot) : State :=
  let n := poisonedSlots l
  s.proofRecord 2 forme (if n = 0 then 0 else 1)
    (le unit 1 ++ le source 1 ++ le sub 1 ++ zeros 1 ++ le ref 4 ++ le l.length 4 ++ le n 4)
    (padTo (le (slotDigest l) 8) 32)

/-- A descriptor-digest record of a fetched entry (R549). -/
def State.descriptorDigest (s : State) (ring sq : Nat) (forme : Option Nat) (entry : Bytes) : State :=
  s.proofRecord 1 forme 0
    (le ring 1 ++ zeros 3 ++ le sq 4 ++ (entry.drop 4).take 4 ++ entry.take 2 ++ (entry.drop 2).take 1 ++ zeros 1)
    (if s.recording then sha256 entry else [])

/-! ### Fingerprints (R554, R555) -/

/-- An empty fingerprint. -/
def Finger.start (ring sq source cls fmt part : Nat) : Finger :=
  { ring := ring, sq := sq, source := source, cls := cls, fmt := fmt, part := part, count := 0, sum := 0, sumsq := 0,
    maxabs := 0, nonfinite := 0, saturated := 0, flushed := 0, poisoned := 0, crc := crcInit }

/-- The format under which a code is summed: digest only for codes 5, 6 and 0xC-0xF (R554). -/
def fingerFmt (code : Nat) : Nat := if code = 5 ∨ code = 6 ∨ code ≥ 12 then 0xFF else code

/-- ±m · 2^e scaled by 2^k and truncated, modulo 2^128 (R555). -/
def scaledMod (neg : Bool) (m : Nat) (e : Int) (k : Int) : Nat :=
  let x : Int := if neg then -(m : Int) else m
  ofInt (addend x (e + k)) 128

/-- One element added to a fingerprint. -/
def Finger.addElem (f : Finger) (b : Nat) (psn : Bool) : Finger :=
  let v := decodeNum f.fmt b
  let f := { f with count := f.count + 1, poisoned := f.poisoned + b2n psn }
  if psn then f
  else if v.cls ≥ 2 then { f with nonfinite := f.nonfinite + 1 }
  else { f with
    sum := (f.sum + scaledMod v.neg v.m v.e 48) % 2 ^ 128
    sumsq := (f.sumsq + scaledMod false (v.m * v.m) (2 * v.e) 32) % 2 ^ 128
    maxabs := max f.maxabs (encodeNum 0 { v with neg := false } { Rnd.rne with mode := 1, ieee := false }).1 }

/-- One slot added to a fingerprint: its elements, or its digest (R554, R555). -/
def Finger.addSlot (f : Finger) (x : Slot) : Finger :=
  if f.fmt = 0xFF then
    { f with count := f.count + 1, crc := crcSlot f.crc x, poisoned := f.poisoned + b2n x.poisoned }
  else
    let w := fmtStream f.fmt
    (List.range (256 / w)).foldl (fun g i =>
      let cw := if i * w < 128 then x.lo else x.hi
      g.addElem (elemBits w x.data.toNat i) (cw == .poison)) f

/-- The two payload units of a fingerprint record (R555). -/
def Finger.payload (f : Finger) : Bytes :=
  let sum := if f.fmt = 0xFF then le (crcOut f.crc) 8 ++ zeros 8 else le f.sum 16
  le f.count 8 ++ sum ++ le f.sumsq 16 ++ le f.maxabs 4 ++ le f.nonfinite 4 ++ le f.saturated 4 ++ le f.flushed 4
    ++ le f.poisoned 4 ++ zeros 4

/-- Writes a fingerprint record (R555). -/
def State.writeFinger (s : State) (f : Finger) (forme : Option Nat) (layer : Nat) (cut : Bool) : State :=
  s.proofRecord 5 forme ((if f.poisoned = 0 then 0 else 1) + (if cut then 4 else 0))
    (le f.source 1 ++ le f.cls 1 ++ le f.fmt 1 ++ le f.part 1 ++ le f.sq 4 ++ le layer 4) f.payload

/-- Whether a fingerprint belongs to a command, class, format and part. -/
def Finger.is (f : Finger) (ring sq cls fmt part : Nat) : Bool :=
  decide (f.ring = ring ∧ f.sq = sq ∧ f.cls = cls ∧ f.fmt = fmt ∧ f.part = part)

/-- Adds to the open fingerprint of a command, or opens it. -/
def State.updFinger (s : State) (ring sq source cls fmt part : Nat) (g : Finger → Finger) : State :=
  if s.recording then
    let l := s.recorder.fingers
    let l := if l.any (·.is ring sq cls fmt part) then l else l ++ [Finger.start ring sq source cls fmt part]
    { s with recorder := { s.recorder with fingers := l.map (fun f => if f.is ring sq cls fmt part then g f else f) } }
  else s

/-- The outstanding RUN of a forme that records fingerprints, by its submission index (R420, R554). -/
def State.provenRun (s : State) (f : Nat) : Option Nat :=
  ((s.ring f).cmds.find? (fun c => c.opcode == 0x1005 && c.prf && c.ended.isNone)).map (·.sq)

/-- Data that a forme's cores sent, summed in a class of the running segment (R554). -/
def State.runData (s : State) (f cls code : Nat) (l : List Slot) : State :=
  match s.provenRun f with
  | none => s
  | some sq => s.updFinger f sq 0 cls (fingerFmt code) 0xFF (fun g => l.foldl Finger.addSlot g)

/-- Numeric events of a forme's cores, counted for class 5 of the running segment (R555). -/
def State.runCounts (s : State) (f sat ftz nan inf : Nat) : State :=
  match s.provenRun f with
  | none => s
  | some sq => s.updFinger f sq 0 5 0xFF 0xFF (fun g =>
      { g with saturated := g.saturated + sat, flushed := g.flushed + ftz, nonfinite := g.nonfinite + nan + inf })

/-- Writes and drops the open fingerprints of a command (R554). -/
def State.closeFingers (s : State) (ring sq : Nat) (forme : Option Nat) (layer : Nat) (cut : Bool) : State :=
  let mine := s.recorder.fingers.filter (fun f => decide (f.ring = ring ∧ f.sq = sq))
  let rest := s.recorder.fingers.filter (fun f => decide (¬ (f.ring = ring ∧ f.sq = sq)))
  { s with recorder := { s.recorder with fingers := rest } }.forAll mine (fun s f => s.writeFinger f forme layer cut)

/-- Ends a segment of a forme's RUN: one fingerprint for each class, empty ones included (R554). -/
def State.endSegment (s : State) (f : Nat) (cut : Bool) : State :=
  match s.provenRun f with
  | none => s
  | some sq =>
    let x := s.forme f
    let layer := match x.layer with
      | some t => (Map.get Tree.init x.trees t).releases
      | none => 0
    let s := s.forAll (List.range 6) (fun s k =>
      if s.recorder.fingers.any (fun g => decide (g.ring = f ∧ g.sq = sq ∧ g.cls = k)) then s
      else s.updFinger f sq 0 k 0xFF 0xFF id)
    s.closeFingers f sq (some f) layer cut

end Sys2Proof.Machine
end

