-- ==== Sys2Proof/Machine/Dark.lean ====
section
/-! DEFINITION. Neighbours, blocked links and detours, and fields whose rail goes off (R24-R26, R249-R253, R306, R307, R483). -/

namespace Sys2Proof.Machine

/-! ### Neighbours and blocked links (R24, R38, R250) -/

/-- Whether a core's column is a hole column under the dead rows in force. -/
def State.holeAt (s : State) (x y : Nat) : Bool := decide (2 < (s.column (columnKey (coreAt x y))).length)

/-- Steps an x coordinate over up to two hole columns. -/
def State.skipHoles (s : State) (y : Nat) (next : Nat → Option Nat) (x : Nat) : Option Nat :=
  match next x with
  | none => none
  | some a =>
    if !s.holeAt a y then some a
    else match next a with
      | none => none
      | some b => if !s.holeAt b y then some b else next b

/-- The core that a router's link reaches, bypasses included: direction 0 N, 1 E, 2 S, 3 W. -/
def State.neighbour (s : State) (c d : Nat) : Option Nat :=
  let x := coreX c
  let y := coreY c
  let east (a : Nat) : Option Nat := if a + 1 < 512 then some (a + 1) else none
  let west (a : Nat) : Option Nat := if 0 < a then some (a - 1) else none
  if d = 0 then (if 0 < y then some (coreAt x (y - 1)) else none)
  else if d = 2 then (if y + 1 < 448 then some (coreAt x (y + 1)) else none)
  else if d = 1 then (s.skipHoles y east x).map (fun a => coreAt a y)
  else (s.skipHoles y west x).map (fun a => coreAt a y)

/-- The opposite direction. -/
def opposite (d : Nat) : Nat := (d + 2) % 4

/-- Whether a dead-link entry names a core's link port, among hellbox entries (R38). -/
def State.portDead (s : State) (hb : List HbEntry) (c d : Nat) : Bool :=
  let row := siteOf (s.column (columnKey c)) (coreY c % 64)
  hb.any (fun e => decide (e.kind = 2 ∧ e.field = fieldOf c ∧ e.col = coreX c % 64 ∧ e.row = row ∧ e.dir = d))

/-- Whether a link is dead, named from either end. -/
def State.linkDeadIn (s : State) (hb : List HbEntry) (c d : Nat) : Bool :=
  s.portDead hb c d || (match s.neighbour c d with
    | some n => s.portDead hb n (opposite d)
    | none => false)

/-- Whether a direction is blocked in a forme's view of absence (R250). -/
def State.blockedView (s : State) (f c d : Nat) : Bool :=
  s.linkDeadIn (s.hellbox.take (s.forme f).viewHb) c d
    || (match s.neighbour c d with
        | some n => !s.presentIn f n
        | none => true)

/-- Whether a direction is blocked in a forme's view of absence, or at run time because the neighbour's site has died: the mark
of R253 goes with the site, not with the logical core (R26, R250, R253). -/
def State.blockedDir (s : State) (f c d : Nat) : Bool :=
  s.blockedView f c d || (match s.neighbour c d with
    | some n => s.died n
    | none => false)

/-! ### Detours (R249-R252) -/

/-- The next direction of X-then-Y routing, 4 at the target. -/
def xyDirection (t c : Nat) : Nat :=
  if coreX c < coreX t then 1 else if coreX t < coreX c then 3
  else if coreY c < coreY t then 2 else if coreY t < coreY c then 0 else 4

/-- Whether a detour entry serves a blocked direction and a target. -/
def detourFits (e : BitVec 64) (d t : Nat) : Bool :=
  let w := e.toNat
  e.getLsbD 63 && decide (bits w 55 54 = d ∧ bits w 8 0 ≤ coreX t ∧ coreX t ≤ bits w 17 9 ∧ bits w 26 18 ≤ coreY t
    ∧ coreY t ≤ bits w 35 27)

/-- The waypoint of a detour entry. -/
def detourPoint (e : BitVec 64) : Nat × Nat := (bits e.toNat 44 36, bits e.toNat 53 45)

/-- The detour entries of every router. -/
abbrev Detours := Nat → List (BitVec 64)

/-- The absent cores of a forme's rectangle. -/
def State.absentCores (s : State) (f : Nat) : List Nat := (s.forme f).coreList.filter (fun c => !s.presentIn f c)

/-- The dead links between cores of a forme's rectangle, by core and direction. -/
def State.deadLinks (s : State) (f : Nat) : List (Nat × Nat) :=
  let hb := s.hellbox.take (s.forme f).viewHb
  if hb.any (fun e => e.kind == 2) then
    (s.forme f).coreList.flatMap (fun c => ((List.range 4).filter (s.linkDeadIn hb c)).map (fun d => (c, d)))
  else []

/-- A forme's rectangle. -/
def Forme.rect (f : Forme) : Nat × Nat × Nat × Nat := (f.cx0, f.cy0, f.cx1, f.cy1)

/-- The direction in which a core sends a message for `t`, and the waypoint that the message then has: X-then-Y, or a detour around a
blocked direction (R249). -/
def State.turn (s : State) (f : Nat) (tab : Detours) (c t : Nat) (wp : Option (Nat × Nat)) : Option (Nat × Option (Nat × Nat)) :=
  let d := xyDirection t c
  if !s.blockedView f c d then some (d, wp)
  else ((tab c).find? (fun e => detourFits e d t)).map (fun e =>
    (xyDirection (coreAt (detourPoint e).1 (detourPoint e).2) c, some (detourPoint e)))

/-- The links, by core and direction, on a message's way to core `b`: none where it is blocked, leaves the forme's rectangle or takes
too many hops (R249, R252). -/
def State.walk (s : State) (f : Nat) (tab : Detours) (b : Nat) : Nat → Nat → Option (Nat × Nat) → Option (List (Nat × Nat))
  | 0, _, _ => none
  | n + 1, c, wp =>
    let wp := if wp = some (coreX c, coreY c) then none else wp
    let t := match wp with
      | some w => coreAt w.1 w.2
      | none => b
    if t = c then some []
    else match s.turn f tab c t wp with
      | none => none
      | some (d, wp) =>
        match s.blockedView f c d || !decide (d < 4), s.neighbour c d with
        | false, some k => if (s.forme f).covers k then (s.walk f tab b n k wp).map ((c, d) :: ·) else none
        | _, _ => none

/-- The way between two cores of a forme (R249). -/
def State.way (s : State) (f : Nat) (tab : Detours) (a b : Nat) : Option (List (Nat × Nat)) := s.walk f tab b 1023 a none

/-- The present cores of a forme, in ascending y, then x, that some other present core is not joined with. -/
def State.unjoinedBy (s : State) (f : Nat) (tab : Detours) : List Nat :=
  let l := s.formeCores f
  l.filter (fun a => l.any (fun b => (s.way f tab a b).isNone || (s.way f tab b a).isNone))

/-- The pairs of links that follow each other on a way. -/
def hopPairs (l : List (Nat × Nat)) : List ((Nat × Nat) × (Nat × Nat)) := List.zip l (l.drop 1)

/-- Whether a relation among links has no cycle: the pairs whose second link leads on nowhere are taken away until none is left. -/
def noCycle : Nat → List ((Nat × Nat) × (Nat × Nat)) → Bool
  | 0, l => l.isEmpty
  | n + 1, l => noCycle n (l.filter (fun e => l.any (fun g => g.1 == e.2)))

/-- Whether detour entries meet R252: every pair of present cores joined inside the rectangle, and no cycle among link buffers. -/
def State.joins (s : State) (f : Nat) (tab : Detours) : Bool :=
  let l := s.formeCores f
  let deps := (l.flatMap (fun a => l.flatMap (fun b => hopPairs ((s.way f tab a b).getD [])))).eraseDups
  (s.unjoinedBy f tab).isEmpty && noCycle deps.length deps

/-- The entries that the device's method tries, at most 8 a router (R251, R252; log 16, DESIGN CHOICE). -/
def State.triedDetours (s : State) (f : Nat) : Detours := fun c =>
  (Config.detours (s.forme f).rect (s.absentCores f) (s.deadLinks f) c).take 8

/-- Whether a forme's rectangle holds nothing absent, so that X-then-Y routes suffice. -/
def State.whole (s : State) (f : Nat) : Bool := (s.absentCores f).isEmpty && (s.deadLinks f).isEmpty

/-- The detour entries of a forme's view: those that the method tries where they meet R252, else none (log 16, DESIGN CHOICE). -/
def State.detourTable (s : State) (f : Nat) : Detours :=
  if !s.whole f && s.joins f (s.triedDetours f) then s.triedDetours f else fun _ => []

/-- The present core that OPEN_FORME names because the device cannot join it to every other (R252). -/
def State.unjoined (s : State) (f : Nat) : Option Nat :=
  if s.whole f || s.joins f (s.detourTable f) then none
  else ((s.unjoinedBy f (s.triedDetours f)) ++ s.formeCores f).head?

/-- Installs the detour entries of a forme's view (R252). -/
def State.installDetours (s : State) (f : Nat) : State :=
  let tab := s.detourTable f
  s.forAll (s.formeCores f) (fun s c => s.updRouter c (fun r => { r with detour := tab c }))

/-! ### A field goes dark (R52, R306, R307, R483) -/

/-- The formes whose rectangle meets a field. -/
def State.formesOn (s : State) (fd : Nat) : List Nat :=
  (s.formes.filter (fun e => e.2.clusters.any (fun k => clusterField k == fd))).map (·.1)

/-- A router whose field has lost power: its messages and tables are gone, its counters stay (R268). -/
def Router.lost (r : Router) : Router :=
  { r with inq := [], wait := [], ejq := [], rot := [], held := [], detour := [], mcast := [], reduce := [] }

/-- A cluster whose island clock is stopped: it no longer coasts, and its suspect window is gone (R463, R545, R599). -/
def Cluster.halted (x : Cluster) : Cluster :=
  { x with ladder := 0, locked := false, coasting := false, refLost := false, mismatches := 0, winOpen := false, soft := 0 }

/-- A cluster whose field has lost its rail: the inputs that a neighbour fed have no reference any more (R456, R457). -/
def Cluster.unfed (k : Nat) (x : Cluster) : Cluster :=
  let q := x.qual0 && (refSource k 0).isNone
  { x with qual0 := q, qual1 := x.qual1 && (refSource k 1).isNone, second := !q }

/-- The clocks and the core rail of a field are off, and the absence map says so (R483 steps 1-3).  A forme that uses the field
no longer counts it, even after its return (R49, R484); a test of the field is abandoned (R509). -/
def State.darken (s : State) (fd : Nat) : State :=
  let s := { s with
    cores := s.cores.filter (fun e => fieldOf e.1 != fd)
    routers := s.routers.map (fun (e : Nat × Router) => if fieldOf e.1 = fd then (e.1, e.2.lost) else e)
    clusters := s.clusters.map (fun (e : Nat × Cluster) =>
      if clusterField e.1 = fd then (e.1, e.2.halted.unfed e.1) else e)
    formes := s.formes.map (fun (e : Nat × Forme) => (e.1, { e.2 with viewFields := clearBit e.2.viewFields fd }))
    mapGen := s.mapGen + 1 }
  s.updField fd (fun x => { x with powered := false, dark := true, pendingDark := false, hotEvals := 0, waitEvals := 0, coolEvals := 0, warned := false,
                                    testing := 0 })

/-- Detours and the FIELD_DARK record: how 0 at once, 1 at a layer quoin (R483 step 4, R534). -/
def State.darkNotice (s : State) (fd how : Nat) : State :=
  let s := s.forAll (s.formesOn fd) (fun s f => s.installDetours f)
  s.post (RecSpec.event Config.clsFieldDark 3 fd (le how 1 ++ zeros 3 ++ le s.mapGen 4))

end Sys2Proof.Machine
end

