-- ==== Sys2Proof/Machine/Complete.lean ====
section
/-! DEFINITION. The ring engine's side of a command: completion entries, consumer lines, interrupts, FENCE and the end
of a forme's commands (R411-R432), and the fault of a forme (R279-R281). -/

namespace Sys2Proof.Machine

/-! ### Rings -/

/-- The bay through which a ring is reached (R402). -/
def Ring.bayOf (g : Ring) : Nat := wordAt g.cfg 17 17

/-- Submission entries, or units of a record ring (R410). -/
def Ring.size (g : Ring) : Nat := 2 ^ (wordAt g.cfg 11 8 + 4)

/-- Completion entries (R410). -/
def Ring.csize (g : Ring) : Nat := 2 ^ (wordAt g.cfg 15 12 + 4)

/-- The distance from index `b` forward to index `a` (R411). -/
def ahead (a b : Nat) : Nat := (a + 2 ^ 32 - b % 2 ^ 32) % 2 ^ 32

/-- Free space of a record ring, in entries or units. -/
def Ring.space (g : Ring) : Nat := g.size - ahead g.produced g.consumed

/-- The units of furniture that a record of `u` units needs before it, when the ring has room for both (R451). -/
def Ring.furniture (g : Ring) (u : Nat) : Option Nat :=
  let t := g.size - g.produced % g.size
  if u ≤ t then (if u ≤ g.space then some 0 else none)
  else if t + u ≤ g.space then some t else none

/-- Whether a ring's bay link is up (R391). -/
def State.ringLink (s : State) (r : Nat) : Bool := decide ((s.bay (s.ring r).bayOf).width ≠ 0)

/-- A write to host memory for a ring, held while its bay's link is down (R391). -/
def State.ringWrite (s : State) (r a : Nat) (b : Bytes) : State :=
  if s.ringLink r then s.hostPut a b false
  else s.updRing r (fun g => { g with held := g.held ++ [(a, b)] })

/-- Sends a ring's MSI-X vector through its bay and resets the counter; a count of 0 raises none (R432). -/
def State.raiseIrq (s : State) (r : Nat) : State :=
  let g := s.ring r
  if wordAt g.irq 15 0 = 0 then s
  else
    let s := s.updRing r (fun g => { g with modCount := 0 })
    if s.ringLink r then { s with msix := s.msix ++ [(g.bayOf, wordAt g.irq 22 16)] }
    else s.updRing r (fun g => { g with heldIrq := g.heldIrq + 1 })

/-- Advances the moderation counter and raises the vector when it reaches the count (R432). -/
def State.countIrq (s : State) (r : Nat) : State :=
  let s := s.updRing r (fun g => { g with modCount := g.modCount + 1 })
  let g := s.ring r
  if g.modCount ≥ wordAt g.irq 15 0 then s.raiseIrq r else s

/-- Writes a submission ring's consumer line (R413). -/
def State.writeConsumer (s : State) (r : Nat) : State :=
  let g := s.ring r
  s.ringWrite r g.cline (le g.fetched 4 ++ le g.produced 4 ++ le g.cmds.length 4 ++ zeros 52)

/-- Writes a record ring's producer index (R414). -/
def State.writeProducer (s : State) (r : Nat) : State :=
  let g := s.ring r
  s.ringWrite r g.cline (le g.produced 4 ++ zeros 60)

/-! ### Completion entries (R427-R430) -/

/-- What a completion says. -/
structure Compl where
  status : Nat
  detail : Nat
  mask : Nat
  value : Nat
deriving DecidableEq, Repr

/-- OK with a value. -/
def Compl.okWith (v : Nat) : Compl := { status := Config.ok, detail := 0, mask := 0, value := v }

/-- OK. -/
def Compl.done : Compl := Compl.okWith 0

/-- A status with neither detail nor value. -/
def Compl.bare (st : Nat) : Compl := { status := st, detail := 0, mask := 0, value := 0 }

/-- BADARG at a byte offset of the entry (R430). -/
def Compl.badArg (off : Nat) : Compl := { Compl.bare Config.badArg with detail := off }

/-- BADARG at a byte offset of a part (R430). -/
def Compl.badPart (off part : Nat) : Compl := { Compl.bare Config.badArg with detail := off + 256 * (part + 1) }

/-- BADSTATE with the device state and a forme's state (R430). -/
def State.badState (s : State) (f : Nat) : Compl :=
  { Compl.bare Config.badState with detail := s.regs.devState + 256 * (s.forme f).state + 65536 * f }

/-- BADSTATE for a command that concerns no forme (R430). -/
def State.badDevice (s : State) : Compl := { Compl.bare Config.badState with detail := s.regs.devState }

/-- ABSENT naming a unit (R430). -/
def Compl.absentUnit (kind n : Nat) : Compl := { Compl.bare Config.absent with detail := kind, value := n }

/-- DENIED at the first refused address (R430). -/
def Compl.denied (host : Bool) (a : Nat) : Compl :=
  { Compl.bare Config.deniedCode with detail := b2n host, value := a }

/-- NOSPACE with the bytes needed (R430). -/
def Compl.noRoom (n : Nat) : Compl := { Compl.bare Config.noSpace with value := n }

/-- The 32 bytes of the completion entry at completion index `i` (R427, R429). -/
def complBytes (c : Cmd) (k : Compl) (i size : Nat) : Bytes :=
  let phase := if i / size % 2 = 0 then 1 else 0
  le c.tag 4 ++ le c.sq 4 ++ le c.opcode 2 ++ le k.status 1 ++ le (phase + (if c.prf then 2 else 0)) 1 ++ le k.detail 4
    ++ le k.mask 8 ++ le k.value 8

/-- Removes a command and notes its status for the DEP of the entry after it (R420). -/
def Ring.retire (g : Ring) (c : Cmd) (st : Nat) : Ring :=
  let rest := g.cmds.filter (fun d => d.sq != c.sq)
  { g with cmds := rest, lastStatus := if g.lastSq = some c.sq then some st else g.lastStatus,
           state := if g.state = 2 ∧ rest.isEmpty then 0 else g.state,
           entries := if g.state = 2 ∧ rest.isEmpty then [] else g.entries
           fences := if g.state = 2 ∧ rest.isEmpty then [] else g.fences }

/-- Completes a command: its completion entry unless NOCOMPL and OK, its consumer line and its interrupt
(R418-R420, R425-R432). -/
def State.complete (s : State) (r : Nat) (c : Cmd) (k : Compl) : State :=
  let silent := c.flags.testBit 2 && decide (k.status = Config.ok)
  let g := s.ring r
  let s1 := if silent then s
    else s.ringWrite r (g.cbase + g.produced % g.csize * 32) (complBytes c k g.produced g.csize)
  let s2 := s1.updRing r (fun g => { g.retire c k.status with
    produced := if silent then g.produced else (g.produced + 1) % 2 ^ 32
    partials := if k.status = Config.partialCode then
      lastN (g.partials ++ [⟨c.sq, c.orig.getD c.sq, if c.orig.isSome then c.select else c.opcode, c.entry, c.parts⟩]) 64 else g.partials })
  let s3 := s2.writeConsumer r
  if silent then s3
  else if c.flags.testBit 4 then s3.raiseIrq r
  else s3.countIrq r

/-! ### FENCE (R426) -/

/-- Whether index `a` lies before index `b`, both free-running counts of 32 bits (R411). -/
def before (a b : Nat) : Bool := decide (0 < (b + 2 ^ 32 - a) % 2 ^ 32 ∧ (b + 2 ^ 32 - a) % 2 ^ 32 < 2 ^ 31)

/-- Whether every entry of a ring before an index has completed. -/
def Ring.clearBelow (g : Ring) (n : Nat) : Bool :=
  g.entries.all (fun e => !before e.1 n) && g.cmds.all (fun c => !before c.sq n)

/-- Whether an outstanding FENCE may complete. -/
def State.fenceMet (s : State) (c : Cmd) : Bool :=
  decide (c.opcode = 0x100C) && c.waits.all (fun w => (s.ring w.1).clearBelow w.2)

/-- Completes every FENCE that may complete, lowest ring first, until none may. -/
def State.settle (s : State) : Nat → State
  | 0 => s
  | n + 1 =>
    let ready := s.rings.flatMap (fun e => (e.2.cmds.filter s.fenceMet).map (fun c => (e.1, c)))
    match ready.head? with
    | none => s
    | some x => (s.complete x.1 x.2 Compl.done).settle n

/-- Enough turns to complete every FENCE: 72 rings of at most 64 commands. -/
def allFences : Nat := 72 * 64

/-- Completes a command and every FENCE that waited for it. -/
def State.finish (s : State) (r : Nat) (c : Cmd) (k : Compl) : State := (s.complete r c k).settle allFences

/-! ### Split commands (R321, R437) -/

/-- The completion that the parts give: OK, or PARTIAL with the failed parts and the lowest one's status. -/
def partsCompl (l : List Part) : Compl :=
  let bad := (List.range l.length).filter (fun i => match l[i]? with
    | some p => decide (p.done ≠ some Config.ok)
    | none => false)
  match bad.head? with
  | none => Compl.done
  | some i =>
    let st := match l[i]? with
      | some p => p.done.getD Config.ok
      | none => Config.ok
    { status := Config.partialCode, detail := st % 256 + 256 * i, mask := bad.foldl setBit 0, value := 0 }

/-- Whether every part has completed. -/
def Cmd.allDone (c : Cmd) : Bool := c.parts.all (fun p => p.done.isSome)

/-- What became of the parts that a RESEND_PARTS names, in every record of theirs: done, or how far a stream came (R382, R437); a part that the
resend does not name has no descriptor in it. -/
def Ring.markResent (g : Ring) (c : Cmd) : Ring :=
  match c.orig with
  | none => g
  | some o =>
    let mark (l : List Part) : List Part := List.zipWith (fun (a b : Part) => if a.desc.isEmpty ∨ b.desc.isEmpty then a else b) l c.parts
    { g with partials := g.partials.map (fun p => if p.root = o then { p with parts := mark p.parts } else p) }

/-- Completes a split command when all of its parts have (R321); its fingerprints are written, cut when its forme left
RUNNING before (R547, R554). -/
def State.finishParts (s : State) (r : Nat) (c : Cmd) (cut : Bool) : State :=
  if c.allDone then
    let s := if c.prf then s.closeFingers r c.sq (some r) 0 cut else s
    (s.updRing r (·.markResent c)).finish r c (partsCompl c.parts)
  else s

/-- An outstanding command of a ring. -/
def Ring.cmd (g : Ring) (sq : Nat) : Option Cmd := g.cmds.find? (fun c => c.sq == sq)

/-- Replaces an outstanding command. -/
def State.putCmd (s : State) (r : Nat) (c : Cmd) : State :=
  s.updRing r (fun g => { g with cmds := g.cmds.map (fun d => if d.sq = c.sq then c else d) })

/-- Completes one part with a status, and the command when it was the last (R321). -/
def State.finishPart (s : State) (r sq n st : Nat) : State :=
  match (s.ring r).cmd sq with
  | none => s
  | some c =>
    match c.parts[n]? with
    | none => s
    | some p =>
      if p.done.isSome then s
      else
        let c' := { c with parts := c.parts.set n { p with done := some st } }
        (s.putCmd r c').finishParts r c' false

/-! ### The end of a forme's commands (R281, R438) -/

/-- Whether an outstanding command acts on the ring's forme: class 1 but for FENCE, MARK and NOP (R421), and not one that has ended. -/
def Cmd.ofForme (c : Cmd) : Bool := decide (c.opcode ≥ 0x1001 ∧ c.opcode ≠ 0x100C ∧ c.opcode ≠ 0x100D) && c.ended.isNone

/-- Completes every started command of a forme with a status; unfinished parts of a split command fail with it. -/
def State.endCommands (s : State) (f : Nat) (k : Compl) : State :=
  s.forAll ((s.ring f).cmds.filter (·.ofForme)) (fun s c =>
    if c.parts.isEmpty then s.finish f c k
    else
      let c' := { c with parts := c.parts.map (fun p => if p.done.isSome then p else { p with done := some k.status }) }
      (s.putCmd f c').finishParts f c' true)

/-- How a forme faults (R280). -/
structure FaultSpec where
  status : Nat
  cls : Nat
  core : Option Nat
  code : Nat
  action : Nat
  unitKind : Nat
  unit : Nat
  detail : Bytes
  census : Option (Nat × Bool)

/-- A fault that a core of the forme causes. -/
def FaultSpec.ofCore (status cls c code action : Nat) (detail : Bytes) : FaultSpec :=
  { status := status, cls := cls, core := some c, code := code, action := action, unitKind := 1, unit := c,
    detail := detail, census := none }

/-- The completion that a fault gives the forme's commands (R430). -/
def FaultSpec.compl (x : FaultSpec) : Compl :=
  let wrote := match x.census with
    | some (_, true) => 65536
    | _ => 0
  let value := match x.census, x.core with
    | some (n, _), _ => n
    | none, some c => c + 2 ^ 63
    | none, none => 0
  { status := x.status, detail := x.cls + 256 * x.code + wrote, mask := 0, value := value }

/-- The patience count that ends a forme (R301). -/
def Forme.patienceEnd (x : Forme) : Nat := (x.patience + 1) * 2 ^ 16

/-- The patience count goes on: by how much is a free value, short of its end (R301, R441; log 95, DEDUCED). -/
def State.agePatience (s : State) (f : Nat) : State :=
  let x := s.forme f
  if x.state = 3 then
    let d := s.draw
    d.2.setForme f { x with waited := x.waited + d.1 % (x.patienceEnd - x.waited) }
  else s

/-- A RUNNING forme enters FAULTED and its started commands complete (R279-R281, R308, R562); after TIMEOUT its patience is spent
(R301, R441). -/
def State.enterFaulted (s : State) (f : Nat) (x : FaultSpec) : State :=
  let s := (s.agePatience f).endSegment f true
  let s := s.updForme f (fun y => { y with
    state := 5, status := x.status, faultClass := x.cls,
    faultCore := x.core, faultCode := x.code, halting := false
    waited := if x.status = Config.timeout then y.patienceEnd else y.waited })
  s.endCommands f x.compl

/-- The fault of a forme itself: recorded in RUNNING, FAULTED and DRAINING (R279-R281, R308). -/
def State.faultOnly (s : State) (f : Nat) (x : FaultSpec) : State :=
  let st := (s.forme f).state
  if st = 3 ∨ st = 5 ∨ st = 6 then
    let noCensus := match x.census with
      | some (_, false) => 4
      | _ => 0
    let s := s.post {
      kind := 1, cls := x.cls, status := x.status, code := x.code, forme := some f,
      unitKind := x.unitKind, action := x.action, flags := noCensus, unit := x.unit, detail := x.detail }
    if st = 3 then s.enterFaulted f x else s
  else s

/-! ### Fields that go dark at once (R31, R52, R306, R307, R381, R384) -/

/-- The port of a stream part, and of an accumulate part with a feeder target (R436). -/
def Part.port (x : Part) : Nat := bytesAt x.desc 0 1

/-- Whether a command's parts use feeder ports. -/
def Cmd.usesPorts (c : Cmd) : Bool :=
  decide (c.select = 0x1004) || (decide (c.select = 0x1007) && decide (bytesAt c.entry 25 1 = 0))

/-- The unfinished parts of every command on a port, in ring and part order. -/
def State.portParts (s : State) (p : Nat) : List PartRef :=
  s.rings.flatMap (fun e => (e.2.cmds.filter (·.usesPorts)).flatMap (fun c =>
    ((List.range c.parts.length).filter (fun i =>
      match c.parts[i]? with
      | some x => x.done.isNone && x.port == p
      | none => false)).map (fun i => (⟨e.1, c.sq, i⟩ : PartRef))))

/-- The fault of a forme whose field has gone dark at once (R52). -/
def FaultSpec.dark (fd : Nat) (detail : Bytes) : FaultSpec :=
  { status := Config.thermal, cls := Config.clsFieldDark, core := none, code := 0, action := 0, unitKind := 3, unit := fd,
    detail := detail, census := none }

/-- What a field leaves behind when its rail is off: its ports' parts fail (R31, R381, R384), and formes that use it, but for one that has
paused, fault with THERMAL (R52). -/
def State.darkFaults (s : State) (fd but : Nat) : State :=
  let ports := (List.range 16).filter (fun p => portField p == fd)
  let s := s.forAll (ports.flatMap s.portParts) (fun s r => s.finishPart r.ring r.sq r.part Config.thermal)
  s.forAll ((s.formesOn fd).filter (· != but)) (fun s f => s.faultOnly f (FaultSpec.dark fd (zeros 4 ++ le s.mapGen 4)))

/-- A field goes dark at once (R52, R307). -/
def State.goDark (s : State) (fd : Nat) : State := ((s.darken fd).darkNotice fd 0).darkFaults fd 64

/-- Whether a pending-dark field may go on waiting: every forme on it is RUNNING and names a layer tree, and there is one
(R306, R307). -/
def State.mayWait (s : State) (f : Nat) : Bool :=
  let l := s.formesOn f
  !l.isEmpty && l.all (fun n => decide ((s.forme n).state = 3) && (s.forme n).layer.isSome)

/-- The pending-dark fields that may wait no longer go dark at once (R307): a fault may end the wait of further ones. -/
def State.settleDark (s : State) : Nat → State
  | 0 => s
  | n + 1 =>
    match s.fields.find? (fun e => e.2.pendingDark && !s.mayWait e.1) with
    | none => s
    | some e => (s.goDark e.1).settleDark n

/-- Enough turns for every field. -/
def allFields : Nat := 56

/-- The fault of a forme (R279-R281), and the fields that waited for its layer quoin (R307, R308). -/
def State.faultForme (s : State) (f : Nat) (x : FaultSpec) : State := (s.faultOnly f x).settleDark allFields

/-- An uncorrectable error in a table, register or control path (R511): UNCORRECTED is posted, and under POISON the unit's forme
faults; for a unit in no forme nothing follows. -/
def State.controlParity (s : State) (f : Option Nat) (unitKind unit : Nat) : State :=
  match f with
  | some n =>
    let reset := s.resetsFor f
    let s := s.noteUncorrected f unitKind unit 9 0 0
    if reset then s
    else s.faultForme n {
      status := Config.faultCode, cls := Config.clsUncorrected, core := if unitKind = 1 then some unit else none,
      code := 0, action := 0, unitKind := unitKind, unit := unit, detail := le 9 1, census := none }
  | none => s.post (RecSpec.event Config.clsUncorrected unitKind unit (le 9 1))

/-- Flushes what a ring held while its bay's link was down (R391, R453). -/
def State.flushHeld (s : State) (r : Nat) : State :=
  let g := s.ring r
  let s := s.forAll g.held (fun s w => s.hostPut w.1 w.2 false)
  let s := { s with msix := s.msix ++ List.replicate g.heldIrq (g.bayOf, wordAt g.irq 22 16) }
  s.updRing r (fun g => { g with held := [], heldIrq := 0 })

end Sys2Proof.Machine
end

