-- ==== Sys2Proof/Machine/Issue.lean ====
section
/-! DEFINITION. How a core's step meets the rest of the device: upsets, the suspect-cluster policy, re-execution, core
faults, and the issue of one instruction (R70, R94-R104, R164-R166, R510-R519). -/

namespace Sys2Proof.Machine

/-! ### Storage upsets (R78, R510) -/

/-- The state that an upset leaves a codeword in. -/
def Cw.upset (c : Cw) (bad : Bool) : Cw :=
  match c with
  | .poison => .poison
  | .uncorrectable => .uncorrectable
  | _ => if bad then .uncorrectable else .correctable

/-- A slot with one of its codewords upset. -/
def Slot.upset (x : Slot) (high bad : Bool) : Slot :=
  if high then { x with hi := x.hi.upset bad } else { x with lo := x.lo.upset bad }

/-- An item with queue-memory codeword `ix` upset, if that is one of its own. -/
def Galley.strike (g : Galley) (ix : Nat) (bad : Bool) (i : Item) : Item :=
  { i with msg := { i.msg with slots := List.zipWith (fun n (sl : Slot) =>
      if g.slotOf i n = ix / 2 then sl.upset (ix % 2 == 1) bad else sl) (List.range i.msg.slots.length) i.msg.slots } }

/-- An upset of a queue-memory codeword: in the item, the waiting contribution or the combining entry that holds it. -/
def Galley.upset (g : Galley) (ix : Nat) (bad : Bool) : Galley :=
  { g with
    items := g.items.map (g.strike ix bad)
    contribs := g.contribs.map (g.strike ix bad)
    entries := g.entries.map (fun e => { e with slots := (g.strike ix bad (e.item e.slots)).msg.slots }) }

/-- An upset of a queue-memory codeword of a core; a fixed head is the item itself. -/
def Core.upsetQueue (x : Core) (ix : Nat) (bad : Bool) : Core :=
  { x with
    galleys := x.galleys.map (fun e => (e.1, e.2.upset ix bad))
    heads := x.heads.map (fun h => (h.1, (x.galley h.1).strike ix bad h.2)) }

/-- An upset in one of a core's memories, by the codes of R534. -/
def Core.upset (x : Core) (u : Upset) : Core :=
  if u.mem = 0 then { x with
    ecc := Map.upd Cw.clean x.ecc u.ix (·.upset u.bad)
    unfenced := x.unfenced.map (fun e => if e.cw = u.ix then e.mapCw (·.upset u.bad) else e) }
  else if u.mem = 1 then { x with iecc := Map.upd Cw.clean x.iecc u.ix (·.upset u.bad) }
  else if u.mem = 2 then x.upsetQueue u.ix u.bad
  else x

/-- The upsets that a step observes. -/
def Core.upsets (x : Core) (o : Obs) : Core := o.upsets.foldl Core.upset x

/-! ### The suspect-cluster policy (R516-R519) -/

/-- The cluster record of the leading plan (R525). -/
def State.lead (s : State) (k : Nat) : Lead := Map.get Lead.init s.plan.clusters k

/-- The plan with a cluster record changed. -/
def State.updLead (s : State) (k : Nat) (f : Lead → Lead) : State :=
  { s with plan := { s.plan with clusters := Map.upd Lead.init s.plan.clusters k f } }

/-- Retires a cluster: recorded in the hellbox, absent for each forme when next opened (R519).  Its count stays what it is (R517). -/
def State.retire (s : State) (k : Nat) : State :=
  (s.updCluster k (fun x => { x with retired := true, winOpen := false })).appendHb
    (retiredEntry k 4) (s.cluster k).forme 2 k

/-- What a suspect step can do to a cluster: 5 raises its voltage, 6 lowers its clock, 7 retires it (R518). -/
def State.suspectAction (s : State) (k : Nat) : Nat :=
  let x := s.cluster k
  let policy := match x.forme with
    | some f => (s.forme f).suspect
    | none => 0
  let up := decide (x.voff + 2 ≤ 12)
  let down := decide (x.cap ≥ 9)
  if policy = 1 then (if down then 6 else if up then 5 else 7) else (if up then 5 else if down then 6 else 7)

/-- The suspect step itself, with its AGEING record (R518). -/
def State.suspectStep (s : State) (k action : Nat) : State :=
  let s := s.updCluster k (fun x =>
    if action = 5 then { x with voff := x.voff + 2 } else { x with cap := x.cap - 1, ladder := min x.ladder (x.cap - 1) })
  let x := s.cluster k
  let s := s.updLead k (fun l => { l with voff := x.voff, cap := x.cap, flags := setBit l.flags 0 })
  let s := { s with plan := { s.plan with generation := (s.plan.generation + 1) % 2 ^ 32 } }
  s.post { RecSpec.event Config.clsAgeing 2 k (le 1 4 ++ le s.plan.generation 4 ++ le 1 4) with
    forme := x.forme, action := action }

/-- A mismatch of a cluster, recorded by `record action count`, and the step that its count brings (R516, R517); those of a retired
cluster are counted, up to 3, and bring none (R519, R545; log 75, DEDUCED). -/
def State.clusterMismatch (s : State) (k base : Nat) (record : State → Nat → Nat → State) : State :=
  let x := s.cluster k
  if x.retired then
    let n := min 3 (x.mismatches + 1)
    record (s.updCluster k (fun x => { x with mismatches := n })) base n
  else if x.mismatches = 0 then
    record (s.updCluster k (fun x => { x with mismatches := 1, winOpen := true })) base 1
  else if x.mismatches = 1 then
    let s := s.updCluster k (fun x => { x with mismatches := 2, winOpen := true })
    let a := s.suspectAction k
    if a = 7 then (record s 7 2).retire k else (record s a 2).suspectStep k a
  else (record (s.updCluster k (fun x => { x with mismatches := 3 })) 7 3).retire k

/-- The detail of a RESIDUE or CHECKER_LANE record (R534). -/
def mismatchDetail (slice lane block ix count lock : Nat) : Bytes :=
  le slice 1 ++ le lane 1 ++ le block 1 ++ zeros 1 ++ le ix 4 ++ le count 1 ++ le lock 1

/-- A mismatch that a core's step reports (R159, R516). -/
def State.coreMismatch (s : State) (c ix base : Nat) (chk : Bool) (slice lane : Nat) : State :=
  s.clusterMismatch (clusterOf c) base (fun s action count =>
    s.post { RecSpec.event (if chk then Config.clsChecker else Config.clsResidue) 1 c
        (mismatchDetail slice lane (s.core c).block ix count 0) with forme := s.formeOf c, action := action })

/-! ### Core faults (R104) -/

/-- The forme status and fault class of a core fault code (R104). -/
def faultClassOf (code : Nat) : Nat × Nat :=
  if code = FaultCode.poisonConsumed then (Config.poisonCode, Config.clsPoison)
  else if code = FaultCode.istoreUncorr then (Config.faultCode, Config.clsUncorrected)
  else if code = FaultCode.residue then (Config.faultCode, Config.clsResidue)
  else if code = FaultCode.checker then (Config.faultCode, Config.clsChecker)
  else (Config.faultCode, 0)

/-- The detail of a forme fault that a core fault causes (R534). -/
def State.faultDetail (s : State) (c ix code info : Nat) : Bytes :=
  let x := s.core c
  if code = FaultCode.poisonConsumed then le info 1 ++ zeros 1 ++ le x.block 1 ++ zeros 1 ++ le ix 4
  else if code = FaultCode.istoreUncorr then le 1 1 ++ zeros 7 ++ le info 8
  else if code = FaultCode.residue then mismatchDetail info 0 x.block ix (s.cluster (clusterOf c)).mismatches 0
  else if code = FaultCode.checker then mismatchDetail 3 info x.block ix (s.cluster (clusterOf c)).mismatches 0
  else []

/-- The core stopped: its staged messages are discarded and its first fault is recorded (R104, R118). -/
def Core.stopped (x : Core) (ix : Nat) (e : Stop) : Core :=
  let y := { x with st := .stopped, ports := x.ports.map (fun p => (p.1, { p.2 with staged := none })) }
  if x.st = .stopped then y
  else { y with
    fault := BitVec.ofNat 32 (e.unit * 2 ^ 26 + ix * 2 ^ 14 + x.block * 2 ^ 8 + e.code)
    faultInfo := BitVec.ofNat 32 e.info }

/-- A core fault: the core stops and its forme faults (R104, R280). -/
def State.coreFault (s : State) (c ix : Nat) (e : Stop) : State :=
  let s := s.updCore c (·.stopped ix e)
  match s.formeOf c with
  | none => s
  | some f =>
    let k := faultClassOf e.code
    s.faultForme f (FaultSpec.ofCore k.1 k.2 c e.code 8 (s.faultDetail c ix e.code e.info))

/-! ### The end of a core's step -/

/-- Flits that a message takes in an input buffer. -/
def Msg.flits (m : Msg) : Nat := 1 + m.len

/-- A message as an input buffer takes it. -/
def RBuf.fresh (m : Msg) : RBuf := { msg := m, routed := false, outs := 0 }

/-- Flits that an input buffer holds: 12 on VC0, 4 on VC1 (R237). -/
def inputFlits (v : Nat) : Nat := if v = 0 then 12 else 4

/-- Flits that stand in an input buffer. -/
def Router.flitsAt (r : Router) (k : Nat) : Nat := ((Map.get [] r.inq k).map (fun b => b.msg.flits)).foldl (· + ·) 0

/-- The messages of a list, in order, that fit into a room of flits, and the rest. -/
def fitting (room : Nat) : List Msg → List Msg × List Msg
  | [] => ([], [])
  | m :: t =>
    if m.flits ≤ room then
      let r := fitting (room - m.flits) t
      (m :: r.1, r.2)
    else ([], m :: t)

/-- An input buffer takes the messages that stand outside it, in order, as far as its room goes (R237, R239). -/
def Router.refill (r : Router) (k : Nat) : Router :=
  let p := fitting (inputFlits (k % 2) - r.flitsAt k) (Map.get [] r.wait k)
  { r with inq := Map.upd [] r.inq k (fun q => q ++ p.1.map RBuf.fresh), wait := Map.set [] r.wait k p.2 }

/-- Brings a message to an input of a core's router: port 0 N, 1 E, 2 S, 3 W, 4 local.  It stands outside while the buffer has no room
(R237, R240). -/
def State.arrive (s : State) (c port : Nat) (m : Msg) : State :=
  let k := port * 2 + m.vc
  s.updRouter c (fun r => ({ r with wait := Map.upd [] r.wait k (fun q => q ++ [m]) }).refill k)

/-- The first mismatch that a step reports, as (checker, slice, lane). -/
def firstMismatch : List CoreEv → Option (Bool × Nat × Nat)
  | [] => none
  | .mismatch k sl l :: _ => some (k, sl, l)
  | _ :: t => firstMismatch t

/-- One report of a core's step, taken by the device (R159, R513, R514, R535). -/
def State.coreReport (s : State) (c ix base : Nat) (e : CoreEv) : State :=
  match e with
  | .corrected mem loc => s.noteCorrected 1 c mem loc
  | .uncorrected mem loc => s.noteUncorrected (s.formeOf c) 1 c mem loc (if mem = 1 then 8 else 2)
  | .mismatch chk sl l => s.coreMismatch c ix base chk sl l

/-- The block table entry of the running block. -/
def Core.running (x : Core) : Block := Map.get Block.init x.blocks x.block

/-- Whether a mismatch leads to re-execution (R94, R98, R100). -/
def Core.mayReplay (x : Core) : Bool := x.running.replay && !x.replayed && x.snap.isSome

/-- Stops issue for re-execution: staged messages are discarded and the core waits in REPLAY (R98). -/
def Core.toReplay (x : Core) (chk : Bool) : Core :=
  { x with st := .replay, mismChk := chk, ports := x.ports.map (fun p => (p.1, { p.2 with staged := none, sent := false })) }

/-- The end of a core's step: the core, its free draws, messages and reports, then its fault or re-execution; a
device that waits to reset goes no further (R515, log 54, DEDUCED).  A residue mismatch that DRAIN, LSTAT or LDOT finds in a slice is
recorded for the product unit (R118; log 90, DESIGN CHOICE). -/
def State.settleCore (s : State) (c ix : Nat) (x : Cx) : State :=
  let before := s.core c
  let s := { s.setCore c x.core with free := x.free }
  let s := s.forAll x.msgs (fun s m => s.arrive c 4 m)
  let s := match s.formeOf c, x.tally && x.core.nc != before.nc with
    | some f, true =>
      let d (k : Nat) : Nat := (List.range 4).foldl (fun n u =>
        n + (Map.get 0 x.core.nc (ncIndex u k) - Map.get 0 before.nc (ncIndex u k))) 0
      s.runCounts f (d Nc.sat) (d Nc.ftz) (d Nc.nanIn) (d Nc.infOut)
    | _, _ => s
  let replay := x.core.mayReplay && x.stop.isNone
  let s := s.forAll x.evs (fun s e => s.coreReport c ix (if replay then 4 else 8) e)
  if s.mgmt.resetWait then s else
  match x.stop with
  | some e => s.coreFault c ix e
  | none =>
    match firstMismatch x.evs with
    | none => s
    | some (chk, sl, l) =>
      if replay then s.updCore c (·.toReplay chk)
      else s.coreFault c ix
        ⟨if chk then FaultCode.checker else FaultCode.residue, if chk then l else sl, if x.core.ended then Unit.commit else if sl = 3 then Unit.vector else Unit.product⟩

/-! ### Issue (R70, R78, R164-R167) -/

/-- Whether a core may work: its forme is RUNNING (R281), its site alive, its island clock runs (R599), and the device does not wait to
reset (R515, log 54, DEDUCED). -/
def State.executing (s : State) (c : Nat) : Bool :=
  match s.formeOf c with
  | some f => decide ((s.forme f).state = 3 ∧ (s.cluster (clusterOf c)).ladder ≠ 0) && !s.died c && !s.mgmt.resetWait
  | none => false

/-- Whether a core issues instructions. -/
def State.issues (s : State) (c : Nat) : Bool :=
  decide ((s.core c).st = .run) && !(s.core c).ended && s.executing c

/-- Fetches the instruction word at the issue index: corrected when it can be, or the core stops with ISTORE_UNCORR
(R78, R104). -/
def Cx.fetch (x : Cx) : Nat × Cx :=
  let pc := x.core.pc
  let w := (Map.get 0 x.core.istore pc).toNat
  match Map.get Cw.clean x.core.iecc (pc / 4) with
  | .correctable =>
    (w, (x.mapCore (fun c => { c with iecc := Map.set Cw.clean c.iecc (pc / 4) .clean })).foundCorrectable 1 (pc / 4 * 4))
  | .clean => (w, x)
  | _ => (w, (x.report (.uncorrected 1 (pc / 4 * 4))).halt FaultCode.istoreUncorr pc Unit.scalar)

/-- The core after issue: the next index, 0 after 4,095 (R167). -/
def Core.advance (x : Core) : Core := { x with pc := (x.pc + 1) % 4096 }

/-- Issues and executes the instruction at a core's issue index, if it belongs to `row`: its encoding is checked, then
its predicate, then `f` gives its meaning (R164-R167). -/
def State.issue (s : State) (c row : Nat) (o : Obs) (f : Nat → Cx → Cx) : State :=
  if s.issues c then
    let x := Cx.start c ((s.core c).upsets o) s.free
    let ix := x.core.pc
    if o.parity then (s.setCore c x.core).controlParity (s.formeOf c) 1 c
    else
      let r := x.fetch
      if r.2.stop.isSome then s.settleCore c ix r.2
      else if !legal r.1 then s.settleCore c ix (r.2.halt FaultCode.illegal r.1 Unit.scalar)
      else if rowOf r.1 = row then
        let y := r.2.mapCore Core.advance
        s.settleCore c ix (if y.core.pred r.1 then f r.1 y else y)
      else s
  else s

end Sys2Proof.Machine
end

