-- ==== Sys2Proof/Machine/Galleys.lean ====
section
/-! DEFINITION. Galleys, ports and messages as a core sees them: geometry, items, credit and release (R200-R236, R242,
R313, R323). -/

namespace Sys2Proof.Machine

/-! ### Message types (R244) -/

abbrev MT.data : Nat := 0x01
abbrev MT.group : Nat := 0x02
abbrev MT.connect : Nat := 0x03
abbrev MT.accept : Nat := 0x04
abbrev MT.refuse : Nat := 0x05
abbrev MT.close : Nat := 0x06
abbrev MT.credit : Nat := 0x07
abbrev MT.stationOp : Nat := 0x08
abbrev MT.stationRsp : Nat := 0x09
abbrev MT.portOp : Nat := 0x0A
abbrev MT.portRsp : Nat := 0x0B
abbrev MT.hostOp : Nat := 0x0C
abbrev MT.hostRsp : Nat := 0x0D

/-- A message with an empty header but for its type, virtual channel, forme, destination and source (R242). -/
def Msg.mk0 (typ vc forme dkind dest sx sy sport : Nat) (slots : List Slot) : Msg :=
  { typ := typ, vc := vc, forme := forme, len := slots.length, dkind := dkind, dest := dest, galley := 0, cls := 0,
    sx := sx, sy := sy, sport := sport, tag := 0, count := 1, hops := 0, wp := none, opw := 0, hdr := none,
    slots := slots }

/-- A connection message from core `me`: one payload flit on VC1 (R209). -/
def connMsg (typ forme me dest sport : Nat) (payload : Bytes) : Msg :=
  Msg.mk0 typ 1 forme 0 dest (coreX me) (coreY me) sport [slotOf payload]

/-- CREDIT for `n` slots to a sender's port (R209). -/
def creditMsgTo (forme me dest port n : Nat) : Msg :=
  connMsg MT.credit forme me dest 0 (le port 2 ++ le n 2)

/-- CLOSE naming the sender's port: bit 4 is 0 from the sender, 1 from the reader or a router (R209, R253, log 29, DEDUCED). -/
def closeMsgTo (forme me dest n : Nat) (reader : Bool) : Msg :=
  connMsg MT.close forme me dest (if reader then 0 else n) (le (n + (if reader then 16 else 0)) 1)

/-- The source core of a message. -/
def Msg.src (m : Msg) : Nat := coreAt m.sx m.sy

/-! ### Galley state -/

/-- The mode of a galley: 0 unused, 1 plain, 2 combining (R233). -/
def Galley.mode (g : Galley) : Nat := wordAt g.cfg 1 0
def Galley.classes (g : Galley) : Nat := wordAt g.cfg 5 4 + 1
def Galley.maxch (g : Galley) : Nat := wordAt g.cfg 11 8 + 1
def Galley.isize (g : Galley) : Nat := wordAt g.cfg 14 12 + 1
def Galley.expect (g : Galley) : Nat := wordAt g.cfg 29 18
def Galley.hasSpill (g : Galley) : Bool := g.cfg.getLsbD 3
def Galley.listening (g : Galley) : Bool := g.lst.getLsbD 31
def Galley.key (g : Galley) : Nat := wordAt g.lst 15 0

/-- The add format of a combining galley as a format code (R219, R233). -/
def Galley.addFmt (g : Galley) : Nat := if wordAt g.cfg 17 16 = 2 then 0xB else wordAt g.cfg 17 16

/-- Capacity of the spill extension in slots (R235). -/
def Galley.spillSize (g : Galley) : Nat := 2 ^ (wordAt g.spl 16 13 + 3)

/-- Slots held in the spill extension (R227). -/
def Galley.occ (g : Galley) : Nat := (g.ext.map (fun i => i.msg.slots.length)).foldl (· + ·) 0

/-- The first slot of the extension that the next message takes: the one after the last message's, round the end; the first of an empty
extension (R227; log 84, DESIGN CHOICE). -/
def Galley.spillPos (g : Galley) : Nat :=
  match g.ext.getLast? with
  | none => 0
  | some i => (i.pos + i.msg.slots.length) % g.spillSize

/-- The first core-store codeword of an extension slot (R227, R235). -/
def Galley.spillCw (g : Galley) (n : Nat) : Nat := (wordAt g.spl 12 0 + n % g.spillSize) * 2

/-- A pointer of a class advanced by `n` slots: n + 1 bits for 2^n slots (R211). -/
def Galley.advance (g : Galley) (m : Map Nat) (c n : Nat) : Map Nat :=
  Map.upd 0 m c (fun p => if g.size c = 0 then p else (p + n) % (2 * g.size c))

/-- Occupied slots of a class (R211). -/
def Galley.occupied (g : Galley) (c : Nat) : Nat :=
  let p := 2 * g.size c
  if p = 0 then 0 else (Map.get 0 g.wp c + p - Map.get 0 g.rp c) % p

/-- Free slots of a class (R211). -/
def Galley.freeSlots (g : Galley) (c : Nat) : Nat := g.size c - g.occupied c

/-- The places of a combining galley that hold an item, an entry or a waiting contribution (R220). -/
def Galley.places (g : Galley) : List Nat :=
  g.items.map (·.pos) ++ g.entries.map (·.pos) ++ g.contribs.map (·.pos)

/-- The place that the next message of a class takes: where wp points (R211, R212), and in a combining galley the lowest free
multiple of the item size (R219, R220; log 84, DESIGN CHOICE). -/
def Galley.place (g : Galley) (c : Nat) : Nat :=
  if g.mode = 2 then
    (((List.range (g.size 0 / g.isize)).map (fun i => i * g.isize)).find? (fun p => !g.places.contains p)).getD 0
  else if g.size c = 0 then 0 else Map.get 0 g.wp c % g.size c

/-- The grant of an accepted channel: floor(S / maxch) (R207). -/
def Galley.grant (g : Galley) (c : Nat) : Nat := g.size (if g.mode = 2 then 0 else c) / g.maxch

/-- The item that the read side sees: the oldest of the highest class that holds one (R214). -/
def Galley.front (g : Galley) : Option Item :=
  ([3, 2, 1, 0].map (fun c => g.items.find? (fun i => i.msg.cls == c))).findSome? id

/-- Whether an item stands at a place of a class. -/
def Item.at (i : Item) (c p : Nat) : Bool := i.msg.cls == c && i.pos == p

/-- Removes an item and advances its class's read pointer (R216). -/
def Galley.drop (g : Galley) (i : Item) : Galley :=
  { g with items := g.items.filter (fun j => !j.at i.msg.cls i.pos),
           rp := g.advance g.rp i.msg.cls i.msg.slots.length }

/-- Whether a galley still holds an item. -/
def Galley.holds (g : Galley) (i : Item) : Bool := g.items.any (·.at i.msg.cls i.pos)

/-- The class that a message's header names: that of its channel (R209, R262). -/
def Msg.chanCls (m : Msg) : Nat := m.hdr.getD m.cls

/-- The channel that a message belongs to (R209). -/
def Galley.chan (g : Galley) (m : Msg) : Option Chan :=
  g.chans.find? (fun c => decide (c.src = m.src ∧ c.port = m.sport ∧ c.cls = m.chanCls))

/-! ### Send ports (R200, R236) -/

abbrev PortSt.idle : Nat := 0
abbrev PortSt.pending : Nat := 1
abbrev PortSt.openSt : Nat := 2
abbrev PortSt.closed : Nat := 3

def Core.port (x : Core) (n : Nat) : Port := Map.get Port.init x.ports n
def Core.updPort (x : Core) (n : Nat) (f : Port → Port) : Core := { x with ports := Map.upd Port.init x.ports n f }

/-- The message size of a port in slots. -/
def Port.slots (p : Port) : Nat := p.size + 1

/-- Whether a port carries control traffic (R201). -/
def Port.control (p : Port) : Bool := p.cfg.getLsbD 0

/-- The class that a port writes at its target (R236). -/
def Port.cls (p : Port) : Nat := wordAt p.cfg 2 1

/-- The kind of unit a port is open to: 0 core, 1 station, 2 feeder port, 3 host bay (R322, R368, R446). -/
def Port.kind (p : Port) : Nat :=
  let y := p.target / 512
  if y = 511 then 1 else if y = 510 then 2 else if y = 509 then 3 else 0

/-- A message discarded at a port that is not OPEN: counted and flagged (R73, R92). -/
def Core.discard (x : Core) (n : Nat) : Core :=
  (x.updPort n (fun p => { p with disc := satAdd p.disc 1 16 })).setCls n

/-! ### Release (R216, R228, R323) -/

/-- A core's wake wire asserts (R67, R68). -/
def Core.wake (x : Core) : Core := { x with gated := false, fails := 0 }

/-- Returns an item's slots: spill debt first, then credit to its channel, or to the local port that a response names, which wakes the
core (R67, R216, R228, R323). -/
def Cx.returnSlots (x : Cx) (g : Nat) (m : Msg) : Cx :=
  let n := m.slots.length
  if m.typ = MT.stationRsp ∨ m.typ = MT.portRsp ∨ m.typ = MT.hostRsp then
    if (x.core.port m.sport).state = PortSt.openSt then
      x.mapCore (fun c => (c.updPort m.sport (fun p => { p with credit := p.credit + n })).wake)
    else x
  else
    let gal := x.core.galley g
    let pay := min gal.debt n
    let y := x.mapCore (fun c => c.updGalley g (fun y => { y with debt := y.debt - pay }))
    match gal.chan m with
    | none => y
    | some ch =>
      if n - pay = 0 then y
      else { y with msgs := y.msgs ++ [creditMsgTo x.core.forme x.me ch.src ch.port (n - pay)] }

/-- Releases an item that a galley holds (R62, R216). -/
def Cx.release (x : Cx) (g : Nat) (i : Item) : Cx :=
  if (x.core.galley g).holds i then (x.mapCore (fun c => c.updGalley g (fun y => y.drop i))).returnSlots g i.msg else x

end Sys2Proof.Machine
end

