-- ==== Sys2Proof/Machine/Scalar.lean ====
section
/-! DEFINITION. The issue unit and the scalar unit: control, predicates and scalar arithmetic (R165-R172). -/

namespace Sys2Proof.Machine

/-- What a step answers. -/
abbrev Out : Type := Host.Outcome State Fault Refusal

/-! ### Control (R171, R172) -/

/-- NOP (R172): no operation. -/
def opNop (_ : Nat) (x : Cx) : Cx := x

/-- END (R172): stops issue for the running block. -/
def opEnd (_ : Nat) (x : Cx) : Cx := x.mapCore (fun c => { c with ended := true })

/-- FENCE (R74, R172): every earlier core-store write is ordered before what follows. -/
def opFence (_ : Nat) (x : Cx) : Cx := x.mapCore (fun c => { c with unfenced := [] })

/-- QARR (R172): sets the quoin arrival of this firing to tree a[3:0]. -/
def opQarr (w : Nat) (x : Cx) : Cx := x.mapCore (fun c => { c with firingQuoin := some (fA w) })

/-- BR (R171): continues issue at the target. -/
def opBr (w : Nat) (x : Cx) : Cx := x.mapCore (fun c => { c with pc := fImm12 w })

/-- DBNZ (R171): decrements sd and branches when the result is nonzero. -/
def opDbnz (w : Nat) (x : Cx) : Cx :=
  let v := x.core.rdS (fD w) - 1
  x.mapCore (fun c => { c.wrS (fD w) v with pc := if v = 0 then c.pc else fImm12 w })

/-- The predicate function of PLOG (R170). -/
def plogFn (fn : Nat) (a b : Bool) : Bool :=
  if fn = 0 then a && b else if fn = 1 then a || b else if fn = 2 then a != b else if fn = 3 then a && !b
  else if fn = 4 then a else !a

/-- PLOG (R170). -/
def opPlog (w : Nat) (x : Cx) : Cx :=
  x.mapCore (fun c => c.wrP (fD w) (plogFn (fFn w) (c.rdP (fA w)) (c.rdP (fB w))))

/-! ### Scalar arithmetic (R169, R170) -/

/-- Leading zeros of a 32-bit word. -/
def clz32 (a : Word) : Nat := if a = 0 then 32 else 31 - Nat.log2 a.toNat

/-- The scalar function of SALU (R170); shift amounts are taken modulo 32. -/
def saluFn (fn : Nat) (a b : Word) : Word :=
  let n := b.toNat % 32
  if fn = 0 then a + b else if fn = 1 then a - b else if fn = 2 then a &&& b else if fn = 3 then a ||| b
  else if fn = 4 then a ^^^ b else if fn = 5 then a <<< n else if fn = 6 then a >>> n
  else if fn = 7 then a.sshiftRight n else if fn = 8 then a * b
  else if fn = 9 then BitVec.ofInt 32 (a.toInt * b.toInt / 2 ^ 32)
  else if fn = 10 then BitVec.ofNat 32 (a.toNat * b.toNat / 2 ^ 32)
  else if fn = 11 then (if a.toInt ≤ b.toInt then a else b)
  else if fn = 12 then (if a.toInt ≤ b.toInt then b else a)
  else if fn = 13 then (if a.toNat ≤ b.toNat then a else b)
  else if fn = 14 then (if a.toNat ≤ b.toNat then b else a)
  else BitVec.ofNat 32 (clz32 a)

/-- SALU (R170). -/
def opSalu (w : Nat) (x : Cx) : Cx :=
  x.mapCore (fun c => c.wrS (fD w) (saluFn (fFn w) (c.rdS (fA w)) (c.rdS (fB w))))

/-- The sign-extended 12-bit immediate. -/
def immS (w : Nat) : Word := BitVec.ofInt 32 (sext (fImm12 w) 12)

/-- The zero-extended 12-bit immediate. -/
def immZ (w : Nat) : Word := BitVec.ofNat 32 (fImm12 w)

/-- A scalar instruction with one register source: sd takes a function of sa. -/
def opUnary (f : Nat → Word → Word) (w : Nat) (x : Cx) : Cx :=
  x.mapCore (fun c => c.wrS (fD w) (f w (c.rdS (fA w))))

/-- ADDI: sa plus the sign-extended immediate. -/
def fnAddi (w : Nat) (a : Word) : Word := a + immS w

/-- ANDI: sa AND the zero-extended immediate. -/
def fnAndi (w : Nat) (a : Word) : Word := a &&& immZ w

/-- ORI: sa OR the zero-extended immediate. -/
def fnOri (w : Nat) (a : Word) : Word := a ||| immZ w

/-- XORI: sa XOR the zero-extended immediate. -/
def fnXori (w : Nat) (a : Word) : Word := a ^^^ immZ w

/-- SHI: sa shifted by imm[4:0]; imm[6:5] is 0 SLL, 1 SRL, 2 SRA. -/
def fnShi (w : Nat) (a : Word) : Word :=
  let n := bits w 4 0
  if bits w 6 5 = 0 then a <<< n else if bits w 6 5 = 1 then a >>> n else a.sshiftRight n

/-- MOVL: the zero-extended 16-bit immediate. -/
def opMovl (w : Nat) (x : Cx) : Cx := x.mapCore (fun c => c.wrS (fD w) (BitVec.ofNat 32 (fImm16 w)))

/-- MOVH: the upper half replaced, the lower half kept. -/
def opMovh (w : Nat) (x : Cx) : Cx :=
  x.mapCore (fun c => c.wrS (fD w) (BitVec.ofNat 32 (fImm16 w * 2 ^ 16 + (c.rdS (fD w)).toNat % 2 ^ 16)))

/-- A comparison condition (R170). -/
def condFn (n : Nat) (a b : Word) : Bool :=
  if n = 0 then a == b else if n = 1 then a != b else if n = 2 then decide (a.toInt < b.toInt)
  else if n = 3 then decide (b.toInt ≤ a.toInt) else if n = 4 then decide (a.toNat < b.toNat)
  else decide (b.toNat ≤ a.toNat)

/-- CMP (R170). -/
def opCmp (w : Nat) (x : Cx) : Cx :=
  x.mapCore (fun c => c.wrP (fD w) (condFn (fFn w) (c.rdS (fA w)) (c.rdS (fB w))))

/-- CMPI: the condition in imm[11:9], against sign-extended imm[8:0]. -/
def opCmpi (w : Nat) (x : Cx) : Cx :=
  x.mapCore (fun c => c.wrP (fD w) (condFn (bits w 11 9) (c.rdS (fA w)) (BitVec.ofInt 32 (sext (bits w 8 0) 9))))

/-! ### The commands -/

def execNop (c : Nat) (o : Obs) (s : State) : Out := .next (s.issue c 64 o opNop)
def execEndBlock (c : Nat) (o : Obs) (s : State) : Out := .next (s.issue c 65 o opEnd)
def execFence (c : Nat) (o : Obs) (s : State) : Out := .next (s.issue c 66 o opFence)
def execQarr (c : Nat) (o : Obs) (s : State) : Out := .next (s.issue c 67 o opQarr)
def execBr (c : Nat) (o : Obs) (s : State) : Out := .next (s.issue c 0x01 o opBr)
def execDbnz (c : Nat) (o : Obs) (s : State) : Out := .next (s.issue c 0x02 o opDbnz)
def execPlog (c : Nat) (o : Obs) (s : State) : Out := .next (s.issue c 0x03 o opPlog)
def execSalu (c : Nat) (o : Obs) (s : State) : Out := .next (s.issue c 0x04 o opSalu)
def execAddi (c : Nat) (o : Obs) (s : State) : Out := .next (s.issue c 0x05 o (opUnary fnAddi))
def execAndi (c : Nat) (o : Obs) (s : State) : Out := .next (s.issue c 0x06 o (opUnary fnAndi))
def execOri (c : Nat) (o : Obs) (s : State) : Out := .next (s.issue c 0x07 o (opUnary fnOri))
def execXori (c : Nat) (o : Obs) (s : State) : Out := .next (s.issue c 0x08 o (opUnary fnXori))
def execShi (c : Nat) (o : Obs) (s : State) : Out := .next (s.issue c 0x09 o (opUnary fnShi))
def execMovl (c : Nat) (o : Obs) (s : State) : Out := .next (s.issue c 0x0A o opMovl)
def execMovh (c : Nat) (o : Obs) (s : State) : Out := .next (s.issue c 0x0B o opMovh)
def execCmp (c : Nat) (o : Obs) (s : State) : Out := .next (s.issue c 0x0C o opCmp)
def execCmpi (c : Nat) (o : Obs) (s : State) : Out := .next (s.issue c 0x0D o opCmpi)

end Sys2Proof.Machine
end

