-- ==== Sys2Proof/Machine/Store.lean ====
section
/-! DEFINITION. Core-store access and CS_ access (R75-R79, R107-R121, R152, R173-R175, R183, R232-R236, R559). -/

namespace Sys2Proof.Machine

/-! ### Core store (R174, R175) -/

/-- LDW: loads a 32-bit word; a poisoned codeword is consumed poison (R175). -/
def opLdw (w : Nat) (x : Cx) : Cx :=
  let a := effAddr (x.core.rdS (fA w)) (fImm12 w) 4
  let y := x.checkAddr a 4 4 Unit.scalar
  if y.stop.isSome then y
  else
    let r := y.readCw Unit.scalar (a / 16)
    if r.2.1 then r.2.2.halt FaultCode.poisonConsumed 0 Unit.scalar
    else r.2.2.mapCore (fun c => c.wrS (fD w) (BitVec.ofNat 32 (elemBits 32 r.1 (a / 4 % 4))))

/-- STW: stores sd as a read-modify-write of its codeword; it sets no flag (R199; log 81, DEDUCED). -/
def opStw (w : Nat) (x : Cx) : Cx :=
  let a := effAddr (x.core.rdS (fA w)) (fImm12 w) 4
  let y := x.checkAddr a 4 4 Unit.scalar
  if y.stop.isSome then y
  else { y with cor := false }.writeCw Unit.scalar (a / 16) ((x.core.rdS (fD w)).toNat * 2 ^ (8 * (a % 16))) (0xF * 2 ^ (a % 16)) .clean

/-- VLD: loads 64 bytes; a poisoned codeword poisons its four lanes (R175). -/
def opVld (w : Nat) (x : Cx) : Cx :=
  let a := effAddr (x.core.rdS (fA w)) (fImm12 w) 64
  let y := x.checkAddr a 64 64 Unit.vector
  if y.stop.isSome then y
  else
    let r := y.readCws Unit.vector (a / 16) 4
    r.2.mapCore (fun c => c.wrV (fD w) (VReg.ofLanes r.1))

/-- VST: stores four whole codewords. -/
def opVst (w : Nat) (x : Cx) : Cx :=
  let a := effAddr (x.core.rdS (fA w)) (fImm12 w) 64
  let y := x.checkAddr a 64 64 Unit.vector
  if y.stop.isSome then y
  else y.writeCws Unit.vector (a / 16) (x.core.rdV (fD w)).lanes 4

/-! ### CS_ registers -/

/-- The state code of CS_STATE (R112). -/
def CoreSt.code (st : CoreSt) : Nat :=
  match st with
  | .empty => 0 | .sleep => 1 | .run => 2 | .commit => 3 | .quoin => 4 | .replay => 5 | .stopped => 6

/-- The state byte of a transposing-buffer half (R121). -/
def HalfCtl.byte (h : HalfCtl) : Nat := h.state + h.owner * 16 + h.width * 64

/-- The unit's configuration fields (R120). -/
def Steer.en (u : Steer) : Bool := u.cfg.getLsbD 0
def Steer.ctl (u : Steer) : Nat := wordAt u.cfg 7 4
def Steer.data (u : Steer) : Nat := wordAt u.cfg 11 8
def Steer.portA (u : Steer) : Nat := wordAt u.cfg 15 12
def Steer.portB (u : Steer) : Nat := wordAt u.cfg 19 16

/-- The port that the held token selects (R89). -/
def Steer.out (u : Steer) : Nat := if u.sel = 0 then u.portA else u.portB

/-- A steering unit of a core. -/
def Core.steer (x : Core) (n : Nat) : Steer := Map.get Steer.init x.steers n
def Core.updSteer (x : Core) (n : Nat) (f : Steer → Steer) : Core :=
  { x with steers := Map.upd Steer.init x.steers n f }

/-- CS_STEERSTn (R120): without a token sel reads 0, and a disabled unit waits for nothing (log 85, DESIGN CHOICE). -/
def Core.steerStatus (x : Core) (n : Nat) : Nat :=
  let u := x.steer n
  let item := (x.galley u.data).items.head?
  let p := x.port u.out
  let room := match item with
    | some i => decide (u.run ≠ 0 ∧ p.state ≠ PortSt.closed ∧ ¬ (p.state = PortSt.openSt ∧ i.msg.slots.length ≤ p.credit))
    | none => false
  u.run + u.sel * 2 ^ 17 + b2n (u.en && room) * 2 ^ 18 + b2n (u.en && decide (u.run ≠ 0) && item.isNone) * 2 ^ 19
    + b2n (u.en && decide (u.run = 0) && item.isSome) * 2 ^ 20

/-- CS_GCNTn_c: complete items and occupied slots (R213, R223, R235). -/
def Galley.count (g : Galley) (c : Nat) : Nat :=
  let its := g.items.filter (fun i => g.mode == 2 || i.msg.cls == c)
  if g.mode = 2 ∧ c ≠ 0 then 0
  else
    let slots := if g.mode = 2 then g.size 0 - g.freeSlots 0 else g.occupied c
    its.length + slots * 2 ^ 16

/-- CS_TSTn (R236). -/
def Port.status (p : Port) : Nat :=
  p.state + p.galley * 2 ^ 18 + p.size * 2 ^ 22 + b2n p.lenient * 2 ^ 25 + p.reason * 2 ^ 26

/-- The shift in force of a core (R26, R109). -/
def State.shiftOf (s : State) (c : Nat) : Nat := siteOf (s.column (columnKey c)) (coreY c % 64) - coreY c % 64

/-- The indices of the counters that count ic: how far they advance is free (R559, R560; log 1, DESIGN CHOICE). -/
def icCounter (i : Nat) : Bool :=
  decide (0x200 ≤ i ∧ i ≤ 0x205) || decide (0x210 ≤ i ∧ i ≤ 0x22F) || (decide (0x240 ≤ i ∧ i ≤ 0x27F) && decide (i % 4 < 2))

/-- A counter of ic, or the pair that begins at `i`, advanced by a free number of ic (R559, R560). -/
def Core.advanceIc (x : Core) (d i : Nat) : Core :=
  let n := Config.freeNat d
  if i < 0x206 then
    let v := (Map.get 0 x.sc i + Map.get 0 x.sc (i + 1) * 2 ^ 32 + n) % 2 ^ 64
    { x with sc := Map.set 0 (Map.set 0 x.sc i (v % 2 ^ 32)) (i + 1) (v / 2 ^ 32) }
  else { x with sc := x.sc.bump i n 32 }

/-- The counters of ic, each pair by its low half. -/
def icCounters : List Nat := ((List.range 0x80).map (0x200 + ·)).filter (fun i => icCounter i && !(decide (i < 0x206) && i % 2 == 1))

/-- Every counter of ic advanced, and the next free draw. -/
def Core.advanceIcs (x : Core) (d : Nat) : Core × Nat :=
  (icCounters.foldl (fun y i => y.advanceIc (d + i - 0x200) i) x, d + 0x80)

/-- CS_STATE of a core (R112): while a block runs, which queues hold work is free, and once END has issued the core may stand at the
commit check with them empty (R62, R70, R99; log 86, DESIGN CHOICE). -/
def Core.stateWord (x : Core) (d : Nat) : Nat :=
  let n := Config.freeNat d
  let rest := x.block * 2 ^ 4 + x.tree * 2 ^ 16
  match x.st with
  | .run => if x.ended && n.testBit 3 then CoreSt.commit.code + rest else CoreSt.run.code + n % 8 * 2 ^ 10 + rest
  | st => st.code + rest

/-- The value of a CS_ register (R107-R121, R152, R232-R236, R559), but for CS_STATE, and for a counter of ic as it stood last. -/
def Core.csValue (x : Core) (c shift i : Nat) : Nat :=
  if i = 0x000 then c + shift * 2 ^ 18
  else if i = 0x001 then x.rank
  else if i = 0x002 then x.forme + x.mapGen % 2 ^ 16 * 2 ^ 16
  else if i = 0x004 then x.en0.toNat
  else if i = 0x005 then x.en1.toNat
  else if i = 0x008 then x.sliceMode.toNat
  else if i = 0x010 then x.flags.toNat
  else if i = 0x011 then x.flagsCnt.toNat
  else if i = 0x012 then x.chan.toNat
  else if i = 0x013 then x.chanCnt.toNat
  else if i = 0x014 then x.fault.toNat
  else if i = 0x015 then x.faultInfo.toNat
  else if i = 0x018 then x.rng.toNat
  else if 0x01C ≤ i ∧ i ≤ 0x01F then (Map.get 0 x.scratch (i - 0x01C)).toNat
  else if 0x020 ≤ i ∧ i ≤ 0x023 then (x.steer (i - 0x020)).cfg.toNat
  else if 0x024 ≤ i ∧ i ≤ 0x027 then x.steerStatus (i - 0x024)
  else if i = 0x028 then x.h0.ctl.byte + x.h1.ctl.byte * 256
  else if 0x100 ≤ i ∧ i ≤ 0x1FF then Map.get 0 x.nc i
  else if 0x200 ≤ i ∧ i ≤ 0x27F then Map.get 0 x.sc i
  else if 0x300 ≤ i ∧ i ≤ 0x37F then
    let g := x.galley ((i - 0x300) / 8)
    let k := (i - 0x300) % 8
    if k = 0 then g.cfg.toNat
    else if k = 1 then g.geo.toNat
    else if k = 2 then (g.lst &&& 0x8000FFFF).toNat + g.chans.length * 2 ^ 16
    else if k = 3 then (g.spl &&& 0x0001FFFF).toNat + g.occ * 2 ^ 17
    else g.count (k - 4)
  else if 0x380 ≤ i ∧ i ≤ 0x3BF then
    let p := x.port ((i - 0x380) / 4)
    let k := (i - 0x380) % 4
    if k = 0 then p.cfg.toNat else if k = 1 then p.status else if k = 2 then p.target else p.credit + p.disc * 2 ^ 16
  else 0

/-- Reads a CS_ register atomically: a counter of ic has advanced, and a _LO register latches its _HI (R112, R559). -/
def Cx.readCs (x : Cx) (shift i : Nat) : Nat × Cx :=
  if i = 0x003 then (x.core.stateWord x.free, { x with free := x.free + 1 })
  else if icCounter i then
    if i < 0x206 ∧ i % 2 = 1 then ((Map.get 0 x.core.latch i).toNat, x)
    else
      let y := { x with free := x.free + 1 }.mapCore (·.advanceIc x.free i)
      let z := y.mapCore (fun c =>
        if i < 0x206 then { c with latch := Map.set 0 c.latch (i + 1) (BitVec.ofNat 32 (Map.get 0 c.sc (i + 1))) } else c)
      (Map.get 0 y.core.sc i, z)
  else (x.core.csValue x.me shift i, x)

/-- CSR: sd takes the register (R173). -/
def opCsr (shift w : Nat) (x : Cx) : Cx :=
  let r := x.readCs shift (fIndex w)
  r.2.mapCore (fun c => c.wrS (fD w) (BitVec.ofNat 32 r.1))

/-- A write of a CS_ register under its access codes (R9, R93, R107, R113-R120, R152, R236, R559); unlisted and
read-only registers ignore it. -/
def Core.writeCs (x : Core) (i : Nat) (v : Word) : Core :=
  if i = 0x004 then { x with en0 := v }
  else if i = 0x005 then { x with en1 := v }
  else if i = 0x008 then { x with sliceMode := v &&& 0x3F }
  else if i = 0x010 then { x with flags := x.flags &&& ~~~v }
  else if i = 0x011 then { x with flagsCnt := v }
  else if i = 0x012 then { x with chan := x.chan &&& ~~~v }
  else if i = 0x013 then { x with chanCnt := v }
  else if i = 0x018 then { x with rng := v }
  else if 0x01C ≤ i ∧ i ≤ 0x01F then { x with scratch := Map.set 0 x.scratch (i - 0x01C) v }
  else if 0x020 ≤ i ∧ i ≤ 0x023 then
    x.updSteer (i - 0x020) (fun u =>
      if u.en then { u with cfg := (u.cfg &&& ~~~1) ||| (v &&& 1) } else { u with cfg := v &&& 0xFFFF1 })
  else if 0x100 ≤ i ∧ i ≤ 0x13F ∧ i % 16 < 7 then { x with nc := Map.set 0 x.nc i v.toNat }
  else if icCounter i ∨ (0x240 ≤ i ∧ i ≤ 0x27F) then { x with sc := Map.set 0 x.sc i v.toNat }
  else if 0x380 ≤ i ∧ i ≤ 0x3BF ∧ i % 4 = 3 then
    x.updPort ((i - 0x380) / 4) (fun p => { p with disc := wordAt v 31 16 })
  else x

/-- Whether a write would put a reserved code into an RW field: mode 3 of CS_SLICE_MODE (R107, R114). -/
def csReserved (i : Nat) (v : Word) : Bool :=
  decide (i = 0x008) && (wordAt v 1 0 == 3 || wordAt v 3 2 == 3 || wordAt v 5 4 == 3)

/-- CSW (R173). -/
def opCsw (w : Nat) (x : Cx) : Cx :=
  let v := x.core.rdS (fA w)
  if csReserved (fIndex w) v then x.halt FaultCode.illegal w Unit.scalar
  else { x.mapCore (fun c => c.writeCs (fIndex w) v) with tally := false }

/-- BEN: sets or clears the enable of one block (R169, R173). -/
def opBen (w : Nat) (x : Cx) : Cx :=
  let n := bits w 5 0
  let m : Word := BitVec.ofNat 32 (2 ^ (n % 32))
  let put (e : Word) : Word := if bit w 6 then e ||| m else e &&& ~~~m
  x.mapCore (fun c => if n < 32 then { c with en0 := put c.en0 } else { c with en1 := put c.en1 })

/-- Releases the token that a steering unit holds (R90, R183). -/
def Cx.dropToken (x : Cx) (n : Nat) : Cx :=
  let y := match (x.core.steer n).tok with
    | some t => x.release t.1 t.2
    | none => x
  y.mapCore (fun c => c.updSteer n (fun u => { u with run := 0, sel := 0, tok := none }))

/-- SCFG: reconfigures a steering unit; a changed control galley drops the held token as a spent one (R183). -/
def opScfg (w : Nat) (x : Cx) : Cx :=
  let n := fD w
  let u := x.core.steer n
  let v := x.core.rdS (fA w) &&& 0xFFFF1
  let y := if wordAt v 7 4 ≠ u.ctl then x.dropToken n else x
  y.mapCore (fun c => c.updSteer n (fun u => { u with cfg := v }))

/-! ### The commands -/

def execLdw (c : Nat) (o : Obs) (s : State) : Out := .next (s.issue c 0x0E o opLdw)
def execStw (c : Nat) (o : Obs) (s : State) : Out := .next (s.issue c 0x0F o opStw)
def execVld (c : Nat) (o : Obs) (s : State) : Out := .next (s.issue c 0x10 o opVld)
def execVst (c : Nat) (o : Obs) (s : State) : Out := .next (s.issue c 0x11 o opVst)
def execCsr (c : Nat) (o : Obs) (s : State) : Out := .next (s.issue c 0x12 o (opCsr (s.shiftOf c)))
def execCsw (c : Nat) (o : Obs) (s : State) : Out := .next (s.issue c 0x13 o opCsw)
def execScfg (c : Nat) (o : Obs) (s : State) : Out := .next (s.issue c 0x15 o opScfg)
def execBen (c : Nat) (o : Obs) (s : State) : Out := .next (s.issue c 0x16 o opBen)

end Sys2Proof.Machine
end

