-- ==== Sys2Proof/Machine/Vector.lean ====
section
/-! DEFINITION. The vector unit (R101, R144-R151, R154, R158, R175-R182, R199). -/

namespace Sys2Proof.Machine

/-! ### Values in lanes -/

/-- The values of a lane: one for types 0 and 3, two for types 1 and 2, the lower first (R147, R163). -/
def laneVals (t lane : Nat) : List Nat := if t = 1 ∨ t = 2 then [lane % 65536, lane / 65536 % 65536] else [lane]

/-- The values of a register in lane order, with their lane's poison. -/
def VReg.vals (t : Nat) (v : VReg) : List (Nat × Bool) :=
  v.lanes.flatMap (fun l => (laneVals t l.1).map (fun x => (x, l.2)))

/-- A register from values in lane order and a poison mask. -/
def ofVals (t : Nat) (l : List Nat) (psn : BitVec 16) : VReg :=
  { bits := BitVec.ofNat 512 (packBits (if t = 1 ∨ t = 2 then 16 else 32) l), poison := psn }

/-- The draws that `n` values take under a rounding mode, and the core after them (R144, R145). -/
def Cx.take (x : Cx) (mode n : Nat) : List Nat × Cx :=
  if mode = 2 then
    let r := draws x.core.rng (n / 2)
    (r.1, x.mapCore (fun c => { c with rng := r.2 }))
  else ([], x)

/-- One exact result to round: its value, whether NAN_IN counts it, and whether it is poisoned (R151, R154). -/
structure Exact where
  num : Fval
  nan : Bool
  psn : Bool

/-- Rounds exact results to a format in order, with the events of those that are not poisoned. -/
def roundAll (f mode : Nat) (ieee flush : Bool) : List Exact → List Nat → List (Nat × NumEv × Bool)
  | [], _ => []
  | e :: t, us =>
    let r := encodeNum f e.num { mode := mode, ieee := ieee, flush := flush, u := us.headD 0 }
    (r.1, if e.psn then NumEv.none else r.2, e.nan && !e.psn) :: roundAll f mode ieee flush t us.tail

/-- Counts rounded results in a unit's counters (R151, R199). -/
def Core.countAll (x : Core) (u : Nat) (sat : Bool) (l : List (Nat × NumEv × Bool)) : Core :=
  let n (p : Nat × NumEv × Bool → Bool) : Nat := (l.filter p).length
  let x := if sat then x.count u Nc.sat (n (·.2.1.sat)) else x
  ((x.count u Nc.ftz (n (·.2.1.ftz))).count u Nc.infOut (n (·.2.1.inf))).count u Nc.nanIn (n (·.2.2))

/-! ### Floating arithmetic (R147, R176, R177) -/

/-- An arithmetic instruction of types 0-2: exact results rounded with rnd and ftz, counted and checked by the lane. -/
def Cx.vfp (x : Cx) (o : Obs) (w : Nat) (psn : BitVec 16) (rs : List Exact) : Cx :=
  let t := fType w
  let d := x.take (fRnd w) rs.length
  let l := roundAll t (fRnd w) true (fFtz w) rs d.1
  (d.2.mapCore (fun c => (c.wrV (fD w) (ofVals t (l.map (·.1)) psn)).countAll 3 false l)).laneCheck o

/-- Whether any of the operands is a NaN. -/
def anyNan (l : List Fval) : Bool := l.any (fun n => n.cls == 3)

/-- A lane-by-lane floating operation on two registers. -/
def Cx.vfp2 (x : Cx) (o : Obs) (w : Nat) (f : Fval → Fval → Fval × Bool) : Cx :=
  let t := fType w
  let a := x.core.rdV (fA w)
  let b := x.core.rdV (fB w)
  let rs := List.zipWith (fun (p q : Nat × Bool) =>
    let m := decodeNum t p.1
    let n := decodeNum t q.1
    let r := f m n
    ({ num := r.1, nan := anyNan [m, n] || r.2, psn := p.2 || q.2 } : Exact)) (a.vals t) (b.vals t)
  x.vfp o w (a.poison ||| b.poison) rs

/-- A wrapping INT32 operation on two registers (R176). -/
def Cx.vint2 (x : Cx) (w : Nat) (f : Nat → Nat → Nat) : Cx :=
  let a := x.core.rdV (fA w)
  let b := x.core.rdV (fB w)
  x.mapCore (fun c => c.wrV (fD w) (ofVals 3
    (List.zipWith (fun (p q : Nat × Bool) => f p.1 q.1 % 2 ^ 32) (a.vals 3) (b.vals 3)) (a.poison ||| b.poison)))

/-- VADD. -/
def opVadd (o : Obs) (w : Nat) (x : Cx) : Cx :=
  if fType w = 3 then x.vint2 w (fun a b => a + b) else x.vfp2 o w Fval.add

/-- VSUB. -/
def opVsub (o : Obs) (w : Nat) (x : Cx) : Cx :=
  if fType w = 3 then x.vint2 w (fun a b => a + 2 ^ 32 - b) else x.vfp2 o w (fun m n => m.add n.negate)

/-- VMUL; the integer multipliers carry residues (R158). -/
def opVmul (o : Obs) (w : Nat) (x : Cx) : Cx :=
  if fType w = 3 then (x.vint2 w (fun a b => a * b)).residueCheck o.residue 3 else x.vfp2 o w Fval.mul

/-- VFMA and VFMS: one rounding of vd ± va·vb. -/
def opVfma (o : Obs) (w : Nat) (x : Cx) : Cx :=
  let t := fType w
  let d := x.core.rdV (fD w)
  let a := x.core.rdV (fA w)
  let b := x.core.rdV (fB w)
  let ab := List.zip (a.vals t) (b.vals t)
  let rs := List.zipWith (fun (r : Nat × Bool) (p : (Nat × Bool) × (Nat × Bool)) =>
    let z := decodeNum t r.1
    let m := decodeNum t p.1.1
    let n := decodeNum t p.2.1
    let q := m.mul n
    let s := z.add (if fNeg w then q.1.negate else q.1)
    ({ num := s.1, nan := anyNan [z, m, n] || q.2 || s.2, psn := r.2 || p.1.2 || p.2.2 } : Exact)) (d.vals t) ab
  x.vfp o w (d.poison ||| a.poison ||| b.poison) rs

/-- The smaller of two values: -0 lies below +0, and a NaN gives way to the other input (R177). -/
def Fval.least (m n : Fval) : Fval :=
  if m.cls = 3 then n else if n.cls = 3 then m
  else if m.lt n then m else if n.lt m then n else if m.neg then m else n

/-- The larger of two values. -/
def Fval.most (m n : Fval) : Fval :=
  if m.cls = 3 then n else if n.cls = 3 then m
  else if m.lt n then n else if n.lt m then m else if m.neg then n else m

/-- VMIN. -/
def opVmin (o : Obs) (w : Nat) (x : Cx) : Cx := x.vfp2 o w (fun m n => (m.least n, false))

/-- VMAX. -/
def opVmax (o : Obs) (w : Nat) (x : Cx) : Cx := x.vfp2 o w (fun m n => (m.most n, false))

/-! ### Lane moves (R176, R179) -/

/-- VUN on one value: MOV, ABS or NEG of its representation (R176). -/
def vunFn (t op v : Nat) : Nat :=
  if op = 0 then v
  else if t = 3 then
    let n := ofInt (-(sext v 32)) 32
    if op = 1 then (if v.testBit 31 then n else v) else n
  else
    let b := if t = 0 then 31 else 15
    if op = 1 then clearBit v b else v ^^^ 2 ^ b

/-- VUN. -/
def opVun (w : Nat) (x : Cx) : Cx :=
  let a := x.core.rdV (fA w)
  x.mapCore (fun c => c.wrV (fD w) (ofVals (fType w) ((a.vals (fType w)).map (fun p => vunFn (fType w) (fB w) p.1)) a.poison))

/-- VBCAST: every lane, or every half lane, takes sa; no lane is poisoned. -/
def opVbcast (w : Nat) (x : Cx) : Cx :=
  let v := (x.core.rdS (fA w)).toNat
  let l := if fType w = 1 ∨ fType w = 2 then List.replicate 32 (v % 65536) else List.replicate 16 v
  x.mapCore (fun c => c.wrV (fD w) (ofVals (fType w) l 0))

/-- VEXT: a lane to a scalar register; a poisoned lane is consumed poison. -/
def opVext (w : Nat) (x : Cx) : Cx :=
  let a := x.core.rdV (fA w)
  if a.psn (fB w) then x.halt FaultCode.poisonConsumed 0 Unit.vector
  else x.mapCore (fun c => c.wrS (fD w) (BitVec.ofNat 32 (a.lane (fB w))))

/-- VROW: lane l takes lane b + l div 8. -/
def opVrow (w : Nat) (x : Cx) : Cx :=
  let a := x.core.rdV (fA w)
  let l := (List.range 16).map (fun i => (a.lane (fB w + i / 8), a.psn (fB w + i / 8)))
  x.mapCore (fun c => c.wrV (fD w) (VReg.ofLanes l))

/-- VSHUF: lane l takes the lane that vb's lane l names; a poisoned index poisons. -/
def opVshuf (w : Nat) (x : Cx) : Cx :=
  let a := x.core.rdV (fA w)
  let b := x.core.rdV (fB w)
  let l := (List.range 16).map (fun i => (a.lane (b.lane i % 16), a.psn (b.lane i % 16) || b.psn i))
  x.mapCore (fun c => c.wrV (fD w) (VReg.ofLanes l))

/-! ### Integer lanes, comparison and selection (R170, R178) -/

/-- Saturates at the INT32 limits. -/
def sat32 (i : Int) : Nat := ofInt (max (-2147483648) (min 2147483647 i)) 32

/-- The lane function of VINT (R170). -/
def vintFn (fn a b : Nat) : Nat :=
  let n := b % 32
  if fn = 0 then a &&& b else if fn = 1 then a ||| b else if fn = 2 then a ^^^ b
  else if fn = 3 then a <<< n else if fn = 4 then a >>> n
  else if fn = 5 then ofInt (sext a 32 / 2 ^ n) 32
  else if fn = 6 then sat32 (sext a 32 + sext b 32)
  else if fn = 7 then sat32 (sext a 32 - sext b 32)
  else a * b

/-- VINT; MULLO carries residues (R158). -/
def opVint (o : Obs) (w : Nat) (x : Cx) : Cx :=
  let y := x.vint2 w (vintFn (fFn w))
  if fFn w = 8 then y.residueCheck o.residue 3 else y

/-- A comparison of two values under a condition (R178). -/
def vcmpFn (t cond a b : Nat) : Bool :=
  if t = 3 then
    let i := sext a 32
    let j := sext b 32
    if cond = 0 then i == j else if cond = 1 then i != j else if cond = 2 then decide (i < j) else decide (i ≤ j)
  else
    let m := decodeNum t a
    let n := decodeNum t b
    if anyNan [m, n] then decide (cond = 1)
    else
      let lt := m.lt n
      let eq := !lt && !n.lt m
      if cond = 0 then eq else if cond = 1 then !eq else if cond = 2 then lt else lt || eq

/-- VCMP: all ones or zeros to each lane or half lane. -/
def opVcmp (w : Nat) (x : Cx) : Cx :=
  let t := fType w
  let a := x.core.rdV (fA w)
  let b := x.core.rdV (fB w)
  let ones := if t = 1 ∨ t = 2 then 0xFFFF else 0xFFFFFFFF
  let l := List.zipWith (fun (p q : Nat × Bool) => if vcmpFn t (fCond w) p.1 q.1 then ones else 0) (a.vals t) (b.vals t)
  x.mapCore (fun c => c.wrV (fD w) (ofVals t l (a.poison ||| b.poison)))

/-- VSEL: selects bits of va and vb under the mask in vd. -/
def opVsel (w : Nat) (x : Cx) : Cx :=
  let d := x.core.rdV (fD w)
  let a := x.core.rdV (fA w)
  let b := x.core.rdV (fB w)
  x.mapCore (fun c => c.wrV (fD w)
    { bits := (d.bits &&& a.bits) ||| (~~~d.bits &&& b.bits), poison := d.poison ||| a.poison ||| b.poison })

/-! ### Exact sums (R149, R180) -/

/-- VSUM: for each value position, the exact sum over va to va + b in a fresh window. -/
def opVsum (o : Obs) (w : Nat) (x : Cx) : Cx :=
  let t := fType w
  let regs := (List.range (fB w + 1)).map (fun i => x.core.rdV (fA w + i))
  let psn := regs.foldl (fun m r => m ||| r.poison) 0
  let n := if t = 0 then 16 else 32
  let sums := (List.range n).map (fun i =>
    let vs := regs.map (fun r => (r.vals t).getD i (0, false))
    let nums := vs.map (fun v => decodeNum t v.1)
    (windowSum nums, anyNan nums, vs.any (·.2)))
  let rs := sums.map (fun e => ({ num := e.1.1.value, nan := e.2.1 || e.1.2.invalid, psn := e.2.2 } : Exact))
  let shifts := (sums.map (fun e => e.1.2.shifts)).foldl (· + ·) 0
  let drops := (sums.map (fun e => e.1.2.drops)).foldl (· + ·) 0
  (x.mapCore (fun c => (c.count 3 Nc.wshift shifts).count 3 Nc.udrop drops)).vfp o w psn rs

/-! ### Conversion (R143, R148, R153, R181) -/

/-- Thirty-two elements at width `w`, with the poison of the lanes they stand in (R143). -/
def Core.elems (x : Core) (r w : Nat) : List (Nat × Bool) :=
  let lanes := x.vregs r (if w = 32 then 2 else 1)
  let all := packBits 32 (lanes.map (·.1))
  let psn (i : Nat) : Bool := (lanes.getD i (0, false)).2
  (List.range 32).map (fun e => (elemBits w all e, psn (e * w / 32) || psn ((e * w + w - 1) / 32)))

/-- Writes thirty-two elements at width `w`; the bits above the last are zero, and a lane with a poisoned element is
poisoned (R143, R146). -/
def Core.putElems (x : Core) (r w : Nat) (l : List (Nat × Bool)) : Core :=
  let all := packBits w (l.map (·.1))
  let hit (i : Nat) : Bool := (List.range 32).any (fun e =>
    (l.getD e (0, false)).2 && (decide (e * w / 32 = i) || decide ((e * w + w - 1) / 32 = i)))
  let reg (k : Nat) : VReg := { bits := BitVec.ofNat 512 (all >>> (512 * k)),
                                poison := BitVec.ofNat 16 (maskOf ((List.range 16).map (fun i => hit (16 * k + i)))) }
  let y := x.wrV r (reg 0)
  if w = 32 then y.wrV (r + 1) (reg 1) else y

/-- VCVT: converts 32 elements; the snapshot of the vector unit's counters follows. -/
def opVcvt (w : Nat) (x : Cx) : Cx :=
  let src := fKSrc w
  let dst := fKDst w
  let es := x.core.elems (fA w) (fmtBits src)
  let rs := es.map (fun e =>
    let n := decodeNum src e.1
    ({ num := n, nan := n.cls == 3, psn := e.2 } : Exact))
  let d := x.take (fKRnd w) 32
  let l := roundAll dst (fKRnd w) (bit w 1) (bit w 0) rs d.1
  d.2.mapCore (fun c =>
    ((c.putElems (fD w) (fmtBits dst) (List.zip (l.map (·.1)) (es.map (·.2)))).countAll 3 true l).snapCounters 3)

/-! ### Transcendental functions (R150, R182) -/

/-- Whether |v·x - 1| ≤ 2^u · |x|: v lies within 2^u of 1/x. -/
def nearRecip (v x : Fval) (u : Int) : Bool :=
  let p := (v.mul x).1
  let one : Fval := .fin false 1 0
  let d := (p.add one.negate).1
  let b : Fval := .fin false x.m (x.e + u)
  !b.lt { d with neg := false }

/-- Whether v lies within 2^u of 1/√x for a positive x: (v - 2^u)²·x ≤ 1 ≤ (v + 2^u)²·x. -/
def nearRsqrt (v x : Fval) (u : Int) : Bool :=
  let one : Fval := .fin false 1 0
  let du : Fval := .fin false 1 u
  let lo := (v.add du.negate).1
  let hi := (v.add du).1
  let sq (n : Fval) : Fval := ((n.mul n).1.mul x).1
  !v.neg && (lo.neg || !one.lt (sq lo)) && !(sq hi).lt one

/-- Floor of a square root, by digits from the top. -/
def isqrt : Nat → Nat → Nat → Nat
  | 0, _, r => r
  | k + 1, n, r => isqrt k n (if (r + 2 ^ k) * (r + 2 ^ k) ≤ n then r + 2 ^ k else r)

/-- 1/x toward zero, to 40 bits. -/
def recipNum (x : Fval) : Fval :=
  let k := Nat.log2 x.m + 41
  .fin x.neg (2 ^ k / x.m) (-(k : Int) - x.e)

/-- 1/√x toward zero, to about 40 bits. -/
def rsqrtNum (x : Fval) : Fval :=
  let odd := x.e % 2
  let m := if odd = 0 then x.m else 2 * x.m
  let e := (if odd = 0 then x.e else x.e - 1) / 2
  let k := 2 * (Nat.log2 m / 2 + 41)
  .fin false (isqrt 44 (2 ^ k / m) 0) (-((k / 2 : Nat) : Int) - e)

/-- The exponent of the last place of a finite FP32 value. -/
def ulp32 (v : Fval) : Int := max (v.e + (Nat.log2 v.m : Int) - 23) (-149)

/-- A value in units of 2^-64, toward minus infinity. -/
def Fval.fix64 (x : Fval) : Int :=
  if -64 ≤ x.e then x.units (-64) else (if x.neg then -(x.m : Int) else x.m) / 2 ^ (-64 - x.e).toNat

/-- The sum of a power series: from term `t`, term n + 1 is term n times `r` over 2^64 and over `d n`, `k` terms in all. -/
def series (r : Int) (d : Nat → Int) : Nat → Nat → Int → Int
  | 0, _, _ => 0
  | k + 1, n, t => t + series r d k (n + 1) (t * r / 2 ^ 64 / d n)

/-- ln 2 in units of 2^-64. -/
abbrev ln2Fix : Int := 0xB17217F7D1CF79AB

/-- 2^x for |x| < 256, to 55 bits: the exponential series of the fraction's part of ln 2. -/
def exp2Num (x : Fval) : Fval :=
  let f := x.fix64
  Fval.ofInt (series (f % 2 ^ 64 * ln2Fix / 2 ^ 64) (fun n => (n : Int) + 1) 24 0 (2 ^ 64)) (f / 2 ^ 64 - 64)

/-- The sum z + z³/3 + z⁵/5 + ... for `z` in units of 2^-64, `k` terms. -/
def atanhSum (z : Int) : Nat → Nat → Int → Int
  | 0, _, _ => 0
  | k + 1, n, t => t / (2 * (n : Int) + 1) + atanhSum z k (n + 1) (t * z / 2 ^ 64 * z / 2 ^ 64)

/-- log₂ of a positive x, to 55 places: the logarithm of its mantissa by the inverse hyperbolic tangent. -/
def log2Num (x : Fval) : Fval :=
  let k := Nat.log2 x.m
  let one : Int := (2 : Int) ^ k
  let z := ((x.m : Int) - one) * 2 ^ 64 / ((x.m : Int) + one)
  Fval.ofInt ((x.e + k) * 2 ^ 64 + 2 * atanhSum z 24 0 z * 2 ^ 64 / ln2Fix) (-64)

/-- sin(2πt/2^64), to 55 places: the quadrant's sine series. -/
def sinTurn (t : Int) : Fval :=
  let q := t % 2 ^ 64 / 2 ^ 62
  let r := t % 2 ^ 62
  let a := (if q % 2 = 1 then 2 ^ 62 - r else r) * 0x1921FB54442D18469 / 2 ^ 62
  let v := series (-(a * a / 2 ^ 64)) (fun n => (2 * (n : Int) + 2) * (2 * n + 3)) 16 0 a
  Fval.ofInt (if 2 ≤ q then -v else v) (-64)

/-- Whether v lies within n · 2^u of r. -/
def nearTo (v r : Fval) (n : Nat) (u : Int) : Bool :=
  !(Fval.fin false n u).lt { (v.add r.negate).1 with neg := false }

/-- A free result that a bound admits, else the exact one rounded toward zero (log 3, DESIGN CHOICE). -/
def admitted (near : Fval → Bool) (exact : Fval) (fn x : Nat) : Nat :=
  let v := (Config.approx fn (BitVec.ofNat 32 x)).toNat
  let n := decodeNum 0 v
  if n.cls ≤ 1 && near n then v else (encodeNum 0 exact { Rnd.rne with mode := 1 }).1

/-- A free result within 1 ulp (R150). -/
def boundedResult (near : Fval → Fval → Int → Bool) (exact : Fval) (fn x : Nat) : Nat :=
  admitted (fun n => near n (decodeNum 0 x) (ulp32 exact)) exact fn x

/-- A free result within 2 ulp of a value known to 55 places; the bound is opened by 2^-25 ulp, so that no result within it is lost
(R150). -/
def within2ulp (exact : Fval) (fn x : Nat) : Nat :=
  admitted (fun n => nearTo n exact (2 ^ 26 + 1) (ulp32 exact - 25)) exact fn x

/-- log₂: within 2 ulp, or within 2^-21 for x in [0.5, 2] (R150). -/
def boundedLog2 (v : Fval) (fn x : Nat) : Nat :=
  let r := log2Num v
  if v.lt (Fval.fin false 1 (-1)) ∨ (Fval.fin false 1 1).lt v then within2ulp r fn x
  else admitted (fun n => nearTo n r (2 ^ 25 + 1) (-46)) r fn x

/-- sin and cos: within 2^-22 (R150); the turn is the input's fraction. -/
def boundedSin (v : Fval) (quarter : Int) (fn x : Nat) : Nat :=
  let r := sinTurn (v.fix64 + quarter)
  admitted (fun n => nearTo n r (2 ^ 25 + 1) (-47)) r fn x

/-- Whether 2^k · x is an integer, for a finite x. -/
def Fval.integral (x : Fval) (k : Int) : Bool := decide (0 ≤ x.e + k) || x.m % 2 ^ (-(x.e + k)).toNat == 0

/-- A result that is zero or not, where the true one is `zero` or not: FTZ counts a zero for a nonzero value (R151). -/
def vtrOut (zero : Bool) (r : Nat) : Nat × Bool × Bool × Bool := (r, false, decide (r % 2 ^ 31 = 0) && !zero, false)

/-- One transcendental result: its bits, and whether NAN_IN, FTZ and INF_OUT count it (R150, R151). -/
def vtrFn (fn x : Nat) : Nat × Bool × Bool × Bool :=
  let v := decodeNum 0 x
  let nan := (fmtNan 0, true, false, false)
  let inf (neg : Bool) := ((if neg then 0xFF800000 else 0x7F800000), false, false, true)
  let zero (neg : Bool) := ((if neg then 0x80000000 else 0), false, false, false)
  if v.cls = 3 then nan
  else if fn = 0 then
    if v.cls = 2 then (if v.neg then zero false else inf false)
    else if v.lt (Fval.fin true 149 0) then (0, false, true, false)
    else if ¬ v.lt (Fval.fin false 128 0) then inf false
    else vtrOut false (within2ulp (exp2Num v) fn x)
  else if fn = 1 then
    if v.cls = 1 then inf true else if v.neg then nan else if v.cls = 2 then inf false
    else vtrOut (v.m == 2 ^ (-v.e).toNat && decide (v.e ≤ 0)) (boundedLog2 v fn x)
  else if fn = 2 then
    if v.cls = 1 then inf v.neg else if v.cls = 2 then zero v.neg
    else if !(Fval.fin false 1 (-128)).lt { v with neg := false } then inf v.neg
    else vtrOut false (boundedResult nearRecip (recipNum v) fn x)
  else if fn = 3 then
    if v.cls = 1 then inf v.neg else if v.neg then nan else if v.cls = 2 then zero false
    else vtrOut false (boundedResult nearRsqrt (rsqrtNum v) fn x)
  else if v.cls = 2 then nan
  else
    let zero := if fn = 5 then v.integral 2 && !v.integral 1 else v.integral 1
    vtrOut zero (boundedSin v (if fn = 5 then 2 ^ 62 else 0) fn x)

/-- VTR: sixteen FP32 lanes; the approximator's multipliers carry residues, whose mismatch sets no flag (R158, R199; log 81,
DEDUCED). -/
def opVtr (o : Obs) (w : Nat) (x : Cx) : Cx :=
  let a := x.core.rdV (fA w)
  let rs := a.lanes.map (fun l => (vtrFn (fB w) l.1, l.2))
  let n (p : Nat × Bool × Bool × Bool → Bool) : Nat := (rs.filter (fun r => p r.1 && !r.2)).length
  let y := (x.mapCore (fun c =>
    (((c.wrV (fD w) (ofVals 0 (rs.map (fun r => r.1.1)) a.poison)).count 3 Nc.nanIn (n (·.2.1))).count 3 Nc.ftz
      (n (·.2.2.1))).count 3 Nc.infOut (n (·.2.2.2)))).laneCheck o
  if o.residue then y.noteMismatch false 3 0 else y

/-! ### The commands -/

def execVadd (c : Nat) (o : Obs) (s : State) : Out := .next (s.issue c 0x18 o (opVadd o))
def execVsub (c : Nat) (o : Obs) (s : State) : Out := .next (s.issue c 0x19 o (opVsub o))
def execVmul (c : Nat) (o : Obs) (s : State) : Out := .next (s.issue c 0x1A o (opVmul o))
def execVfma (c : Nat) (o : Obs) (s : State) : Out := .next (s.issue c 0x1B o (opVfma o))
def execVmin (c : Nat) (o : Obs) (s : State) : Out := .next (s.issue c 0x1C o (opVmin o))
def execVmax (c : Nat) (o : Obs) (s : State) : Out := .next (s.issue c 0x1D o (opVmax o))
def execVun (c : Nat) (o : Obs) (s : State) : Out := .next (s.issue c 0x1E o opVun)
def execVbcast (c : Nat) (o : Obs) (s : State) : Out := .next (s.issue c 0x1F o opVbcast)
def execVext (c : Nat) (o : Obs) (s : State) : Out := .next (s.issue c 0x20 o opVext)
def execVrow (c : Nat) (o : Obs) (s : State) : Out := .next (s.issue c 0x21 o opVrow)
def execVshuf (c : Nat) (o : Obs) (s : State) : Out := .next (s.issue c 0x22 o opVshuf)
def execVint (c : Nat) (o : Obs) (s : State) : Out := .next (s.issue c 0x23 o (opVint o))
def execVcmp (c : Nat) (o : Obs) (s : State) : Out := .next (s.issue c 0x24 o opVcmp)
def execVsel (c : Nat) (o : Obs) (s : State) : Out := .next (s.issue c 0x25 o opVsel)
def execVsum (c : Nat) (o : Obs) (s : State) : Out := .next (s.issue c 0x26 o (opVsum o))
def execVcvt (c : Nat) (o : Obs) (s : State) : Out := .next (s.issue c 0x27 o opVcvt)
def execVtr (c : Nat) (o : Obs) (s : State) : Out := .next (s.issue c 0x28 o (opVtr o))

end Sys2Proof.Machine
end

