-- ==== Sys2Proof/Machine/Product.lean ====
section
/-! DEFINITION. The product engine: operand forms, split-operand plans, PROD, PCLR, DRAIN, the ligature reads and the
transposing buffer (R80-R85, R124-R146, R153-R156, R184-R193). -/

namespace Sys2Proof.Machine

/-! ### Operands and plans (R126-R136) -/

/-- One decoded operand element: its value, its pieces as integers with their last place's exponent, its poison. -/
structure Opnd where
  num : Fval
  pieces : List (Nat × Int)
  psn : Bool

/-- A finite value's significand normalised to `b` bits, with its last place's exponent (R128, R133). -/
def normTo (b : Nat) (v : Fval) : Nat × Int :=
  let k := b - 1 - Nat.log2 v.m
  (v.m * 2 ^ k, v.e - (k : Int))

/-- A significand rounded to nearest even to 8 bits, a carry renormalising it (R134, plan 0). -/
def round8 (v : Fval) : Nat × Int :=
  let q := v.e + (Nat.log2 v.m : Int) - 7
  let n := roundTo v.m v.e q 0 0
  if n = 256 then (128, q + 1) else (n, q)

/-- The number of pieces of a format (R133). -/
def fmtPieces (f : Nat) : Nat := if f = 0 then 3 else if f = 2 then 2 else 1

/-- The pieces of a finite value under a plan (R133, R134). -/
def piecesOf (plan f : Nat) (v : Fval) : List (Nat × Int) :=
  if v.cls ≠ 0 then []
  else if plan = 0 then [round8 v]
  else if f = 0 then
    let r := normTo 24 v
    [(bits r.1 23 16, r.2 + 16), (bits r.1 15 8, r.2 + 8), (bits r.1 7 0, r.2)]
  else if f = 2 then
    let r := normTo 11 v
    [(bits r.1 10 3, r.2 + 3), (bits r.1 2 0 * 32, r.2 - 5)]
  else [normTo 8 v]

/-- The largest combined offset of a plan, in pieces (R134). -/
def planDepth (plan : Nat) : Nat := if plan = 3 then 4 else plan

/-- The terms of a plan in pass order: descending combined offset, lower `a` first (R135). -/
def planTerms (plan na nb : Nat) : List (Nat × Nat) :=
  ((List.range (planDepth plan + 1)).flatMap (fun o => (List.range (o + 1)).map (fun a => (a, o - a)))).filter
    (fun t => decide (t.1 < na ∧ t.2 < nb))

/-- One term of the product of two operands, and whether it is invalid (R130, R132). -/
def Opnd.term (p q : Opnd) (t : Nat × Nat) : Fval × Bool :=
  if p.num.cls = 0 ∧ q.num.cls = 0 then
    let a := p.pieces.getD t.1 (0, 0)
    let b := q.pieces.getD t.2 (0, 0)
    (.fin (p.num.neg != q.num.neg) (a.1 * b.1) (a.2 + b.2), false)
  else p.num.mul q.num

/-- An element with what its additions have counted: window shifts, drops, NaN inputs, and whether a comparison of its residue has failed
(R151, R156). -/
structure Mac where
  acc : Acc
  shifts : Nat
  drops : Nat
  nans : Nat
  bad : Bool

/-- One cell step: a term added to the element (R130, R139-R142, R151, R154). -/
def Mac.add (x : Mac) (t : Nat × Nat) (p q : Opnd) : Mac :=
  let r := p.term q t
  let a := x.acc.addNum r.1
  let psn := x.acc.poison || p.psn || q.psn
  let nan := (p.num.cls == 3 || q.num.cls == 3 || r.2 || a.2.invalid) && !psn
  { acc := { a.1 with poison := psn }, shifts := x.shifts + a.2.shifts, drops := x.drops + a.2.drops,
    nans := x.nans + b2n nan, bad := x.bad || a.2.bad }

/-- All passes of one element over the product's depth (R135). -/
def Mac.run (x : Mac) (terms : List (Nat × Nat)) (depth : Nat) (a b : Nat → Opnd) : Mac :=
  terms.foldl (fun x t => (List.range depth).foldl (fun x k => x.add t (a k) (b k)) x) x

/-! ### The product pair (R184, R188) -/

def pClr (w : Nat) : Nat := bits w 24 23
def pKindB (w : Nat) : Nat := bits w 22 21
def pKindA (w : Nat) : Nat := bits w 20 19
def pDepth (w : Nat) : Nat := if bits w 18 13 = 0 then 64 else bits w 18 13
def pPlan (w : Nat) : Nat := bits w 12 10
def pMxB (w : Nat) : Bool := bit w 9
def pMxA (w : Nat) : Bool := bit w 8
def pFmtB (w : Nat) : Nat := bits w 7 4
def pFmtA (w : Nat) : Nat := bits w 3 0
def pPreset (w : Nat) : Int := sext (bits w 28 17) 12
def pVs (w : Nat) : Nat := bits w 16 12
def pR0 (w : Nat) : Nat := bits w 11 7
def pC0 (w : Nat) : Nat := bits w 6 0

/-- Whether a block-scale bit is accepted with a format (R125). -/
def mxOk (mx : Bool) (f : Nat) : Bool := !mx || decide (3 ≤ f ∧ f ≤ 8)

/-- Whether the product pair, the source fields and the slice mode are legal (R124, R125, R134, R184, R185, R187,
R188). -/
def prodLegal (w d0 d1 mode : Nat) : Bool :=
  decide (bits d0 31 25 = 0) && decide (bits d1 31 29 = 0) && decide (pClr d0 ≠ 3) && decide (pPlan d0 ≤ 3)
    && decide (pFmtA d0 < 11) && decide (pFmtB d0 < 11) && mxOk (pMxA d0) (pFmtA d0) && mxOk (pMxB d0) (pFmtB d0)
    && (!(pMxA d0 || pMxB d0) || decide (pDepth d0 = 32 ∨ pDepth d0 = 64))
    && (decide (pKindA d0 = 3) == decide (mode = 1)) && (decide (pKindB d0 = 3) == decide (mode = 2))
    && !(decide (pKindA d0 = 2) && decide (fSrcA w ≥ 16)) && !(decide (pKindB d0 = 2) && decide (fSrcB w ≥ 16))
    && !(decide (pKindA d0 = 3) && decide (fSrcA w ≥ 2)) && !(decide (pKindB d0 = 3) && decide (fSrcB w ≥ 2))

/-! ### Operand reads (R80-R82, R185-R187) -/

/-- The stream of `n` elements of width `e` from a source of kinds 0-2 (R185, R186). -/
def Cx.stream (x : Cx) (w kind src n e : Nat) : List (Nat × Bool) × Cx :=
  let size := n * e / 8
  if kind = 0 then
    let k := (n * e + 511) / 512
    if src + k > 32 then ([], x.halt FaultCode.illegal w Unit.product) else (x.core.vregs src k, x)
  else if kind = 1 then
    let a := (x.core.rdS src).toNat
    let y := x.checkAddr a size 64 Unit.product
    if y.stop.isSome then ([], y) else y.readCws Unit.product (a / 16) ((size + 15) / 16)
  else
    match x.core.head src with
    | none => ([], x.halt FaultCode.galleyUnnamed src Unit.product)
    | some i => x.readSlots src i 0 ((size + 31) / 32)

/-- The width code of a half for an element width (R121). -/
def widthCode (e : Nat) : Nat := if e = 4 then 0 else if e = 8 then 1 else if e = 16 then 2 else 3

/-- Whether a column read of a half faults with TBUF (R82, R187). -/
def HalfCtl.refuses (h : HalfCtl) (slice e rows cols : Nat) : Bool :=
  decide (h.state < 2 ∨ h.owner ≠ slice ∨ h.width ≠ widthCode e ∨ h.rows < rows ∨ 512 / e < cols)

/-- Checks the column reads of a product and marks the half READING (R81, R82). -/
def Cx.columns (x : Cx) (hf slice e rows cols : Nat) : Cx :=
  let h := x.core.half hf
  if h.ctl.refuses slice e rows cols then x.halt FaultCode.tbuf hf Unit.product
  else x.mapCore (fun c => c.setHalf hf { h with ctl := { h.ctl with state := 3 } })

/-- The elements of one operand: `at' i k` is its element in row (or column) i at step k (R185-R187). -/
def Cx.operand (x : Cx) (w kind src f rows n row0 col0 depth : Nat) (place : Nat → Nat → Nat) :
    (Nat → Nat → Nat × Bool) × Cx :=
  let e := fmtStream f
  if kind = 3 then
    let h := x.core.half src
    (fun i k => h.elem e (row0 + i) (col0 + k), x.columns src (fSlice w) e (row0 + rows) (col0 + depth))
  else
    let r := x.stream w kind src n e
    (fun i k => streamElem r.1 e (place i k), r.2)

/-- A decoded operand element with its block scale (R126, R188). -/
def mkOpnd (plan f : Nat) (v : Nat × Bool) (scale : Option (Nat × Bool)) : Opnd :=
  let n := decodeNum f v.1
  match scale with
  | none => { num := n, pieces := piecesOf plan f n, psn := v.2 }
  | some s =>
    let n := scaleNum f n s.1
    { num := n, pieces := piecesOf plan f n, psn := v.2 || s.2 }

/-- Scale byte `i` of a register, with its lane's poison (R188). -/
def VReg.scale (v : VReg) (i : Nat) : Nat × Bool := (elemBits 8 v.bits.toNat i, v.psn (i / 4))

/-- The clear of a product's clr field (R138, R184). -/
def Core.prodClear (x : Core) (sl bk d0 d1 : Nat) : Core :=
  if pClr d0 = 0 then x
  else
    let p := if pClr d0 = 2 then some (pPreset d1) else none
    (List.range 32).foldl (fun y e => y.wrAcc sl bk e (Acc.cleared p)) x

/-- The passes of a product over the 32 elements of its bank, counted in the slice, and whether a residue comparison failed (R130-R142,
R151, R156). -/
def Core.prodRun (x : Core) (sl bk plan na nb depth : Nat) (a b : Nat → Nat → Opnd) : Core × Bool :=
  let terms := planTerms plan na nb
  (List.range 32).foldl (fun (y : Core × Bool) e =>
    let m := (Mac.mk (y.1.rdAcc sl bk e) 0 0 0 false).run terms depth (a (e / 8)) (fun k => b (e % 8) k)
    ((((y.1.wrAcc sl bk e m.acc).count sl Nc.wshift m.shifts).count sl Nc.udrop m.drops).count sl Nc.nanIn m.nans, y.2 || m.bad))
    (x, false)

/-- PROD (R130-R142, R184-R189); a corrected operand sets no flag (R199; log 81, DEDUCED). -/
def opProd (o : Obs) (w : Nat) (x : Cx) : Cx :=
  let x := { x with cor := false }
  let d0 := (x.core.rdS (fDp w)).toNat
  let d1 := (x.core.rdS (fDp w + 1)).toNat
  let sl := fSlice w
  let bk := fBank w
  if !prodLegal w d0 d1 (wordAt x.core.sliceMode (2 * sl + 1) (2 * sl)) then x.halt FaultCode.illegal w Unit.product
  else
    let depth := pDepth d0
    let fa := pFmtA d0
    let fb := pFmtB d0
    let ra := x.operand w (pKindA d0) (fSrcA w) fa 4 (4 * depth) (pR0 d1) (pC0 d1) depth (fun i k => i * depth + k)
    if ra.2.stop.isSome then ra.2
    else
      let rb := ra.2.operand w (pKindB d0) (fSrcB w) fb 8 (8 * depth) (pR0 d1) (pC0 d1) depth (fun j k => k * 8 + j)
      if rb.2.stop.isSome then rb.2
      else
        let vs := x.core.rdV (pVs d1)
        let a (i k : Nat) : Opnd := mkOpnd (pPlan d0) fa (ra.1 i k) (if pMxA d0 then some (vs.scale (4 * (k / 32) + i)) else none)
        let b (j k : Nat) : Opnd := mkOpnd (pPlan d0) fb (rb.1 j k) (if pMxB d0 then some (vs.scale (8 + 8 * (k / 32) + j)) else none)
        let r := ((rb.2.core.prodClear sl bk d0 d1).touchBank sl bk).prodRun sl bk (pPlan d0) (fmtPieces fa) (fmtPieces fb) depth a b
        { rb.2 with core := r.1 }.residueCheck (o.residue || r.2) sl

/-- PCLR (R138, R190). -/
def opPclr (w : Nat) (x : Cx) : Cx :=
  let v := (x.core.rdS (fDp w)).toNat
  if fDp w ≠ 0 ∧ bits v 31 12 ≠ 0 then x.halt FaultCode.illegal w Unit.product
  else
    let p := if fDp w = 0 then none else some (sext v 12)
    x.mapCore (fun c => (List.range 32).foldl (fun y e => y.wrAcc (fSlice w) (fBank w) e (Acc.cleared p))
      (c.touchBank (fSlice w) (fBank w)))

/-! ### DRAIN, LSTAT, LDOT (R143-R146, R191, R192) -/

/-- The 32 elements of a bank. -/
def Core.bank (x : Core) (sl bk : Nat) : List Acc := (List.range 32).map (x.rdAcc sl bk)

/-- Whether a residue mismatch is observed, or an element read fails its comparison (R156). -/
def residueSeen (o : Obs) (accs : List Acc) : Bool := o.residue || accs.any (fun e => !e.residueOk)

/-- DRAIN. -/
def opDrain (o : Obs) (w : Nat) (x : Cx) : Cx :=
  let sl := fSlice w
  let bk := fBank w
  let accs := x.core.bank sl bk
  let d := x.take (fDRnd w) 32
  let l := roundAll (fDFmt w) (fDRnd w) (bit w 6) (bit w 5)
    (accs.map (fun e => ({ num := e.value, nan := false, psn := e.poison } : Exact))) d.1
  let y := d.2.mapCore (fun c =>
    (c.putElems (fDp w) (fmtBits (fDFmt w)) (List.zip (l.map (·.1)) (accs.map (·.poison)))).countAll sl true l)
  let y := (y.residueCheck (residueSeen o accs) sl).mapCore (fun c => c.snapCounters sl)
  if bit w 4 then
    y.mapCore (fun c => (List.range 32).foldl (fun z e => z.wrAcc sl bk e Acc.init) (c.touchBank sl bk))
  else y

/-- A bank rounded to FP32 to nearest even in saturate mode, in element order (R192). -/
def bankFp32 (accs : List Acc) : List (Nat × NumEv × Bool) :=
  roundAll 0 0 false false (accs.map (fun e => ({ num := e.value, nan := false, psn := e.poison } : Exact))) []

/-- One sum of R192: its FP32 bits and events, NaN when the row holds a non-finite element. -/
structure RowSum where
  out : Nat
  inf : Bool
  shifts : Nat
  drops : Nat

/-- A row's sum of exact values (R192). -/
def rowSum (bad : Bool) (l : List Fval) : RowSum :=
  let r := windowSum l
  if bad then { out := fmtNan 0, inf := false, shifts := r.2.shifts, drops := r.2.drops }
  else
    let v := encodeNum 0 r.1.value Rnd.rne
    { out := v.1, inf := v.2.inf, shifts := r.2.shifts, drops := r.2.drops }

/-- Counts the sums in the vector unit (R199). -/
def Core.countSums (x : Core) (l : List RowSum) (psn : List Bool) : Core :=
  let sum (f : RowSum → Nat) : Nat := (l.map f).foldl (· + ·) 0
  let infs := (List.zip l psn).foldl (fun n p => n + b2n (p.1.inf && !p.2)) 0
  ((x.count 3 Nc.wshift (sum (·.shifts))).count 3 Nc.udrop (sum (·.drops))).count 3 Nc.infOut infs

/-- The exact value of FP32-rounded element `8i + j` of a row; a non-finite element gives a NaN to the sums. -/
def rowVals (accs : List Acc) (vs : List (Nat × NumEv × Bool)) (i : Nat) : List Fval :=
  (List.range 8).map (fun j =>
    if (accs.getD (8 * i + j) Acc.init).cls ≠ 0 then Fval.nan else decodeNum 0 (vs.getD (8 * i + j) (0, .none, false)).1)

/-- A property of the elements of a row. -/
def rowAny (accs : List Acc) (i : Nat) (p : Acc → Bool) : Bool :=
  (List.range 8).any (fun j => p (accs.getD (8 * i + j) Acc.init))

/-- LSTAT (R192). -/
def opLstat (o : Obs) (w : Nat) (x : Cx) : Cx :=
  let sl := fSlice w
  let accs := x.core.bank sl (fBank w)
  let vs := bankFp32 accs
  let rows := List.range 4
  let bad := rows.map (fun i => rowAny accs i (fun e => e.cls != 0))
  let psn := rows.map (fun i => rowAny accs i (·.poison))
  let s1 := rows.map (fun i => rowSum (bad.getD i false) (rowVals accs vs i))
  let s2 := rows.map (fun i => rowSum (bad.getD i false) ((rowVals accs vs i).map (fun v => (v.mul v).1)))
  let mx := rows.map (fun i =>
    if bad.getD i false then fmtNan 0
    else (List.range 8).foldl (fun m j => max m ((vs.getD (8 * i + j) (0, .none, false)).1 % 2 ^ 31)) 0)
  let cnt := rows.map (fun i => ((List.range 8).filter (fun j => (accs.getD (8 * i + j) Acc.init).cls != 0)).length)
  let lanes := List.zip (s1.map (·.out) ++ s2.map (·.out) ++ mx ++ cnt) (psn ++ psn ++ psn ++ psn)
  (x.mapCore (fun c =>
    ((c.wrV (fDp w) (VReg.ofLanes lanes)).countAll sl true vs).countSums (s1 ++ s2) (psn ++ psn))).residueCheck (residueSeen o accs) sl

/-- LDOT (R192). -/
def opLdot (o : Obs) (w : Nat) (x : Cx) : Cx :=
  let sl := fSlice w
  let accs := x.core.bank sl (fBank w)
  let vs := bankFp32 accs
  let tile := x.core.vregs (fSrcA w) 2
  let rows := List.range 4
  let bad := rows.map (fun i => rowAny accs i (fun e => e.cls != 0))
  let psn := rows.map (fun i => rowAny accs i (·.poison) || (List.range 8).any (fun j => (tile.getD (8 * i + j) (0, false)).2))
  let s1 := rows.map (fun i => rowSum (bad.getD i false)
    (List.zipWith (fun v j => (v.mul (decodeNum 0 (tile.getD (8 * i + j) (0, false)).1)).1) (rowVals accs vs i) (List.range 8)))
  let zero := List.replicate 4 0
  let lanes := List.zip (s1.map (·.out) ++ zero ++ zero ++ zero) (psn ++ psn ++ psn ++ psn)
  (x.mapCore (fun c =>
    ((c.wrV (fDp w) (VReg.ofLanes lanes)).countAll sl true vs).countSums s1 psn)).residueCheck (residueSeen o accs) sl

/-! ### The transposing buffer (R80-R82, R96, R193) -/

/-- TCLAIM: EMPTY to FILLING. -/
def opTclaim (w : Nat) (x : Cx) : Cx :=
  let h := x.core.half (fHalf w)
  if h.ctl.state ≠ 0 then x.halt FaultCode.tbuf (fHalf w) Unit.product
  else x.mapCore (fun c => c.setHalf (fHalf w) {
    ctl := { state := 1, owner := fTSlice w, width := fTWidth w, rows := fTRows w, written := 0 }, data := [] })

/-- One row written; the half is FULL when every claimed row has been (R80, R81). -/
def Half.putRow (h : Half) (row : Nat) (v : VReg) : Half :=
  let m := setBit h.ctl.written row
  { ctl := { h.ctl with written := m, state := if (List.range h.ctl.rows).all (fun i => m.testBit i) then 2 else 1 },
    data := Map.set VReg.init h.data row v }

/-- A row write, which faults unless the half is FILLING (R82). -/
def Cx.writeRow (x : Cx) (hf row : Nat) (v : VReg) : Cx :=
  let h := x.core.half hf
  if h.ctl.state ≠ 1 then x.halt FaultCode.tbuf hf Unit.product else x.mapCore (fun c => c.setHalf hf (h.putRow row v))

/-- TWRV: a row from a vector register. -/
def opTwrv (w : Nat) (x : Cx) : Cx := x.writeRow (fHalf w) (fTRow w) (x.core.rdV (fTSrc w))

/-- TWRM: a row from core store, through the product port. -/
def opTwrm (w : Nat) (x : Cx) : Cx :=
  let a := ((x.core.rdS (fTSrc w)).toNat + 64 * fTImm w) % 2 ^ 32
  let y := x.checkAddr a 64 64 Unit.product
  if y.stop.isSome then y
  else
    let r := y.readCws Unit.product (a / 16) 4
    r.2.writeRow (fHalf w) (fTRow w) (VReg.ofLanes r.1)

/-- TREL: the owner releases a half, at once or, with REPLAY set, at commit. -/
def opTrel (w : Nat) (x : Cx) : Cx :=
  let h := x.core.half (fHalf w)
  if h.ctl.state = 0 ∨ h.ctl.owner ≠ fTSlice w then x.halt FaultCode.tbuf (fHalf w) Unit.product
  else x.mapCore (fun c =>
    if c.running.replay then { c with releasing := c.releasing ++ [fHalf w] } else c.setHalf (fHalf w) Half.init)

/-! ### The commands -/

def execProd (c : Nat) (o : Obs) (s : State) : Out := .next (s.issue c 0x2A o (opProd o))
def execPclr (c : Nat) (o : Obs) (s : State) : Out := .next (s.issue c 0x2B o opPclr)
def execDrain (c : Nat) (o : Obs) (s : State) : Out := .next (s.issue c 0x2C o (opDrain o))
def execLstat (c : Nat) (o : Obs) (s : State) : Out := .next (s.issue c 0x2D o (opLstat o))
def execLdot (c : Nat) (o : Obs) (s : State) : Out := .next (s.issue c 0x2E o (opLdot o))
def execTclaim (c : Nat) (o : Obs) (s : State) : Out := .next (s.issue c 0x30 o opTclaim)
def execTwrv (c : Nat) (o : Obs) (s : State) : Out := .next (s.issue c 0x31 o opTwrv)
def execTwrm (c : Nat) (o : Obs) (s : State) : Out := .next (s.issue c 0x32 o opTwrm)
def execTrel (c : Nat) (o : Obs) (s : State) : Out := .next (s.issue c 0x33 o opTrel)

end Sys2Proof.Machine
end

