-- ==== Sys2Proof/Machine/Channel.lean ====
section
/-! DEFINITION. Channel instructions: opening, listening, closing, sending and receiving (R73, R194-R198, R200-R209, R322-R325,
R368, R446). -/

namespace Sys2Proof.Machine

/-! ### Opening and closing (R194, R195, R200-R204) -/

/-- Whether an enabled steering unit reads a galley (R204, R322). -/
def Core.steered (x : Core) (g : Nat) : Bool :=
  (List.range 4).any (fun n => (x.steer n).en && ((x.steer n).ctl == g || (x.steer n).data == g))

/-- Whether the opening core itself refuses the open (R201, R322, R368, R446). -/
def Core.refusesOpen (x : Core) (p : Port) : Bool :=
  let g := x.galley p.galley
  let n := p.target % 512
  let reply := decide (g.mode ≠ 1) || x.steered p.galley || decide (g.classes ≤ p.cls)
  (p.control && decide (p.size ≠ 0))
    || (decide (p.kind = 1) && (decide (448 ≤ n) || reply))
    || (decide (p.kind = 2) && (decide (16 ≤ n) || p.control || reply))
    || (decide (p.kind = 3) && (decide (2 ≤ n) || reply))

/-- The dkind of a port's target (R243). -/
def Port.dkind (p : Port) : Nat := if p.kind = 0 then 0 else if p.kind = 1 then 2 else 3

/-- The dest of a port's target (R243, R446). -/
def Port.dest (p : Port) : Nat :=
  if p.kind = 0 then p.target else if p.kind = 3 then 16 + p.target % 512 else p.target % 512

/-- The CONNECT of a port (R204, R209). -/
def Core.connectMsg (x : Core) (me n : Nat) (p : Port) (key : Nat) : Msg :=
  let b := le (me % 2 ^ 18 + n * 2 ^ 18) 4 ++ le x.rank 2 ++ le key 2
    ++ le (p.galley + p.cls * 16 + b2n p.control * 64 + b2n p.lenient * 128) 1 ++ le p.size 1
  { connMsg MT.connect x.forme me p.dest n b with dkind := p.dkind }

/-- CHOPEN: the port becomes PENDING and a CONNECT leaves, or the open is refused locally. -/
def opChopen (w : Nat) (x : Cx) : Cx :=
  let n := fHN w
  let a := (x.core.rdS (fHA w)).toNat
  let b := (x.core.rdS (fHB w)).toNat
  let p := x.core.port n
  if bits a 31 18 ≠ 0 ∨ bits b 31 24 ≠ 0 then x.halt FaultCode.illegal w Unit.scalar
  else if p.state = PortSt.openSt ∨ p.state = PortSt.pending then x
  else
    let q := { p with state := PortSt.pending, credit := 0, lenient := bit b 23, size := bits b 22 20,
                      galley := bits b 19 16, target := bits a 17 0 }
    if x.core.refusesOpen q then
      x.mapCore (fun c => (c.updPort n (fun _ => { q with state := PortSt.idle, reason := 0 })).setRef n)
    else
      { x.mapCore (fun c => c.updPort n (fun _ => q)) with
        msgs := x.msgs ++ [x.core.connectMsg x.me n q (bits b 15 0)] }

/-- CHLISTEN: the galley listens with a key. -/
def opChlisten (w : Nat) (x : Cx) : Cx :=
  let b := x.core.rdS (fHB w)
  if wordAt b 31 16 ≠ 0 then x.halt FaultCode.illegal w Unit.scalar
  else x.mapCore (fun c => c.updGalley (fHN w) (fun g => { g with lst := 0x80000000 ||| b }))

/-- The galley stops listening, and one CLOSE, naming the sender's port, goes to each accepted channel (R229, log 29, DEDUCED). -/
def Cx.stopListening (x : Cx) (n : Nat) : Cx :=
  let g := x.core.galley n
  { x.mapCore (fun c => c.updGalley n (fun g => { g with
      lst := g.lst &&& 0x7FFFFFFF, chans := []
      shut := (g.shut ++ g.chans.map (fun c => (c.src, c.port, c.cls))).eraseDups })) with
    msgs := x.msgs ++ g.chans.map (fun ch => closeMsgTo x.core.forme x.me ch.src ch.port true) }

/-- CHCLOSE: kind 0 closes a port at commit, kind 1 stops a galley listening. -/
def opChclose (w : Nat) (x : Cx) : Cx :=
  if fHKind w = 0 then x.mapCore (fun c => { c with closing := c.closing ++ [fHN w] }) else x.stopListening (fHN w)

/-! ### Sending (R73, R196, R197, R323, R324) -/

/-- The response length of a request by its descriptor (R316, R368, R448). -/
def replyLen (kind d : Nat) : Nat :=
  let op := bits d 7 0
  let len := bits d 95 80
  if kind = 0 then 0
  else if op = 1 then (if kind = 1 ∧ bit d 8 then 1 else len + 1)
  else if kind = 1 ∧ op = 3 then
    if bit d 8 then 1 else (len * 2 ^ (bits d 97 96 + 2) + 31) / 32 + 1
  else 1

/-- The message of a send (R242, R313, R324); a request whose slot 0 has nonzero bytes 16-31 keeps that slot, so that its
len disagrees with its slots and its unit refuses it. -/
def Core.sendMsg (x : Core) (me n tag : Nat) (p : Port) (slots : List Slot) : Msg :=
  let m := { Msg.mk0 MT.data (b2n p.control) x.forme p.dkind p.dest (coreX me) (coreY me) n slots with
             galley := p.galley, cls := p.cls, tag := tag }
  if p.kind = 0 then m
  else
    let d := (slots.headD zeroSlot).data.toNat
    { m with
      typ := if p.kind = 1 then MT.stationOp else if p.kind = 2 then MT.portOp else MT.hostOp
      len := slots.length - 1
      opw := BitVec.ofNat 128 d
      slots := if d / 2 ^ 128 = 0 then slots.drop 1 else slots }

/-- The slots that a send may stage on a port (R196, R201); a host control port's descriptor does not count, since it travels in the header
(R324, R446; log 102, DEDUCED). -/
def Port.stages (p : Port) : Nat := if p.kind = 3 ∧ p.control then p.slots + 1 else p.slots

/-- The checks that a send makes of its port (R196), in this order, and SENDM's address after them (log 92, DESIGN CHOICE). -/
def Cx.checkSend (x : Cx) (n len : Nat) : Cx :=
  if !x.core.running.sends.testBit n then x.halt FaultCode.portUnnamed n Unit.vector
  else if (x.core.port n).sent then x.halt FaultCode.doubleSend n Unit.vector
  else if (x.core.port n).stages < len then x.halt FaultCode.msgSize n Unit.vector
  else x

/-- A send of slots: staged on an OPEN port, else discarded, with its status written (R73, R197). -/
def Cx.sendSlots (x : Cx) (w : Nat) (slots : List Slot) : Cx :=
  let n := fPort w
  let p := x.core.port n
  let mark (c : Core) : Core := c.updPort n (fun p => { p with sent := true })
  let status (c : Core) (v : Nat) : Core := c.wrS (fSSt w) (BitVec.ofNat 32 v)
  if p.state = PortSt.openSt then
    let head := slots.headD zeroSlot
    if p.kind ≠ 0 ∧ head.lo = .poison then x.halt FaultCode.poisonConsumed 3 Unit.vector
    else if p.slots < replyLen p.kind (head.data.toNat % 2 ^ 128) then x.halt FaultCode.msgSize n Unit.vector
    else
      let tag := (x.core.rdS (fSTag w)).toNat % 65536
      let m := x.core.sendMsg x.me n tag p slots
      x.mapCore (fun c => status ((mark c).updPort n (fun p => { p with staged := some m })) 0)
  else
    let v := if p.state = PortSt.closed ∧ p.lenient then 0x00 else 0x10
    x.mapCore (fun c => status ((mark c).discard n) v)

/-- Slots from the codewords of consecutive lanes. -/
def slotsOf (l : List (Nat × Bool)) : Nat → List Slot
  | 0 => []
  | n + 1 =>
    let c := l.take 8
    { data := BitVec.ofNat 256 (packBits 32 (c.map (·.1))), lo := Cw.ofPoison ((c.take 4).any (·.2)),
      hi := Cw.ofPoison ((c.drop 4).any (·.2)) } :: slotsOf (l.drop 8) n

/-- SENDV: slots from vector registers, two to each. -/
def opSendv (w : Nat) (x : Cx) : Cx :=
  let y := x.checkSend (fPort w) (fSLen w)
  if y.stop.isSome then y
  else y.sendSlots w ((List.range (fSLen w)).map (fun i => (x.core.rdV (fSSrc w + i / 2)).slot (i % 2)))

/-- SENDM: slots from core store, through the channel port. -/
def opSendm (w : Nat) (x : Cx) : Cx :=
  let y := x.checkSend (fPort w) (fSLen w)
  if y.stop.isSome then y
  else
    let a := (x.core.rdS (fSSrc w)).toNat
    let y := y.checkAddr a (32 * fSLen w) 32 Unit.vector
    if y.stop.isSome then y
    else
      let r := y.readCws Unit.vector (a / 16) (2 * fSLen w)
      r.2.sendSlots w (slotsOf r.1 (fSLen w))

/-! ### Receiving (R198) -/

/-- The lanes that a whole slot fills: its poison, in either codeword, goes into all eight (R198; log 91, DEDUCED). -/
def Slot.wholeLanes (x : Slot) : List (Nat × Bool) := x.lanes.map (fun l => (l.1, x.poisoned))

/-- GRDV: 64 bytes of the head to a vector register. -/
def opGrdv (w : Nat) (x : Cx) : Cx :=
  x.withHead (fGalley w) Unit.vector (fun i =>
    let a := x.readSlot (fGalley w) i (2 * fSel w)
    let b := a.2.readSlot (fGalley w) i (2 * fSel w + 1)
    b.2.mapCore (fun c => c.wrV (fD w) (VReg.ofLanes (a.1.wholeLanes ++ b.1.wholeLanes))))

/-- GRDS: a word of the head to a scalar register; a poisoned word is consumed poison. -/
def opGrds (w : Nat) (x : Cx) : Cx :=
  x.withHead (fGalley w) Unit.vector (fun i =>
    let r := x.readSlot (fGalley w) i (fSel w / 8)
    let l := r.1.lanes.getD (fSel w % 8) (0, false)
    if l.2 then r.2.halt FaultCode.poisonConsumed 0 Unit.vector
    else r.2.mapCore (fun c => c.wrS (fD w) (BitVec.ofNat 32 l.1)))

/-- GCOPY: the whole head item to core store, through the channel port; its codewords keep their poison. -/
def opGcopy (w : Nat) (x : Cx) : Cx :=
  x.withHead (fHN w) Unit.vector (fun i =>
    let a := (x.core.rdS (fHA w)).toNat
    let n := i.msg.slots.length
    let y := x.checkAddr a (32 * n) 32 Unit.vector
    if y.stop.isSome then y
    else
      let r := y.readSlots (fHN w) i 0 n
      r.2.writeCws Unit.vector (a / 16) r.1 (2 * n))

/-! ### The commands -/

def execChopen (c : Nat) (o : Obs) (s : State) : Out := .next (s.issue c 0x38 o opChopen)
def execChlisten (c : Nat) (o : Obs) (s : State) : Out := .next (s.issue c 0x39 o opChlisten)
def execChclose (c : Nat) (o : Obs) (s : State) : Out := .next (s.issue c 0x3A o opChclose)
def execSendv (c : Nat) (o : Obs) (s : State) : Out := .next (s.issue c 0x3B o opSendv)
def execSendm (c : Nat) (o : Obs) (s : State) : Out := .next (s.issue c 0x3C o opSendm)
def execGrdv (c : Nat) (o : Obs) (s : State) : Out := .next (s.issue c 0x3D o opGrdv)
def execGrds (c : Nat) (o : Obs) (s : State) : Out := .next (s.issue c 0x3E o opGrds)
def execGcopy (c : Nat) (o : Obs) (s : State) : Out := .next (s.issue c 0x3F o opGcopy)

end Sys2Proof.Machine
end

