-- ==== Sys2Proof/Machine/Edge.lean ====
section
/-! DEFINITION. The edge of the fabric: absorption, gates, entry and exit cores, and the responses of stations, ports and bays (R253,
R257-R259, R313-R317, R370, R448). -/

namespace Sys2Proof.Machine

/-! ### Absorption (R24, R46, R253) -/

/-- Whether a message comes from a core. -/
def Msg.fromCore (m : Msg) : Bool := decide (m.sy < 448)

/-- A message absorbed at a router: counted, with a CLOSE to the source of DATA or CONNECT (R253). -/
def State.absorb (s : State) (c : Nat) (m : Msg) : State :=
  let s := s.updRouter c (fun r => { r with absorbed := satAdd r.absorbed 1 32 })
  if (m.typ = MT.data ∨ m.typ = MT.connect) ∧ m.fromCore then
    s.arrive c 4 (closeMsgTo m.forme c m.src m.sport true)
  else s

/-- Whether a router is there: its field powered, its column no hole column, its core not dead (R24, R105). -/
def State.stands (s : State) (c : Nat) : Bool :=
  (s.field (fieldOf c)).powered && decide ((s.column (columnKey c)).length ≤ 2) && !s.died c

/-- Whether a router works: it is there, and its island clock runs (R599). -/
def State.routes (s : State) (c : Nat) : Bool := s.stands c && decide ((s.cluster (clusterOf c)).ladder ≠ 0)

/-! ### Gates (R257-R259) -/

/-- The gate columns of a forme. -/
def Forme.gateColumns (f : Forme) : List Nat :=
  ((List.range (4 * (f.cx1 + 1 - f.cx0))).map (fun i => 4 * f.cx0 + i)).filter (fun x => x % 64 == 0 || x % 64 == 63)

/-- The gate cores of a forme in the columns and rows of its rectangle. -/
def Forme.gateCores (f : Forme) : List Nat :=
  f.gateColumns.flatMap (fun x => (List.range (4 * (f.cy1 + 1 - f.cy0))).map (fun j => coreAt x (4 * f.cy0 + j)))

/-- Distance, with the second side last. -/
def sideDist (a b : Nat) : Nat := 2 * (if a ≤ b then b - a else a - b) + (if b < a then 1 else 0)

/-- The order in which gate cores are preferred for a core: nearest column, west first, then nearest row, north first. -/
def gateKey (c g : Nat) : Nat := sideDist (coreX g) (coreX c) * 2048 + sideDist (coreY g) (coreY c)

/-- The least of a list under a key. -/
def leastBy (key : Nat → Nat) : List Nat → Option Nat
  | [] => none
  | x :: t =>
    match leastBy key t with
    | none => some x
    | some y => if key y < key x then some y else some x

/-- The exit or entry core for traffic between a core and a station or bay (R258). -/
def State.gateOf (s : State) (f c : Nat) : Option Nat :=
  leastBy (gateKey c) ((s.forme f).gateCores.filter (s.presentIn f))

/-- The exit or entry core for traffic between a core and a feeder port (R259). -/
def portExit (p c : Nat) : Nat := coreAt (64 * (p % 8) + coreX c % 64) (if p < 8 then 0 else 447)

/-- The router input that an attachment beside a gate core feeds: west of column 0, east of column 63 of a field. -/
def gateInput (g : Nat) : Nat := if coreX g % 64 = 0 then 3 else 1

/-- A message comes in from an attachment: dropped at the gate while its forme drains (R282), absorbed at a router that does not work
(R253; which router counts it is log 93, DESIGN CHOICE). -/
def State.comeIn (s : State) (c port : Nat) (m : Msg) : State :=
  if (s.forme m.forme).state = 6 then s
  else if s.stands c then s.arrive c port m
  else s.absorb c m

/-- A message from a station or bay to a core enters the forme at its gate (R258); without one it is lost. -/
def State.enter (s : State) (m : Msg) : State :=
  if m.dkind = 0 then
    match s.gateOf m.forme m.dest with
    | some g => s.comeIn g (gateInput g) m
    | none => s
  else s

/-- A message from a feeder port to a core enters at the port's edge row (R259). -/
def State.enterPort (s : State) (p : Nat) (m : Msg) : State := s.comeIn (portExit p m.dest) (if p < 8 then 0 else 2) m

/-! ### Requests and responses (R313-R317) -/

/-- Where the answer to a request goes. -/
def Msg.reply (m : Msg) : Reply :=
  { core := m.src, sport := m.sport, galley := m.galley, cls := m.cls, tag := m.tag, forme := m.forme, opw := m.opw,
    vc := m.vc }

/-- Descriptor fields (R314). -/
def dOp (d : Nat) : Nat := bits d 7 0
def dFlags (d : Nat) : Nat := bits d 15 8
def dReq (d : Nat) : Nat := bits d 31 16
def dAddr (d : Nat) : Nat := bits d 79 32
def dLen (d : Nat) : Nat := bits d 95 80
def dArg (d : Nat) : Nat := bits d 127 96

/-- The descriptor of a message as a number. -/
def Msg.desc (m : Msg) : Nat := m.opw.toNat

/-- A status without values. -/
def Status.of (code : Nat) : Status := { code := code, flags := 0, v1 := 0, v2 := 0, v3 := 0 }

/-- The status slot of R316. -/
def Status.slot (x : Status) (d unit : Nat) : Slot :=
  slotOf (le x.code 1 ++ le (dOp d) 1 ++ le (dReq d) 2 ++ le unit 2 ++ le x.flags 1 ++ zeros 1 ++ le x.v1 8 ++ le x.v2 8
    ++ le x.v3 8)

/-- A response message: data slots, then the status slot (R313, R316). -/
def Reply.msg (r : Reply) (typ unit sy : Nat) (data : List Slot) (st : Status) : Msg :=
  { Msg.mk0 typ r.vc r.forme 0 r.core unit sy r.sport (data ++ [st.slot r.opw.toNat unit]) with
    galley := r.galley, cls := r.cls, opw := r.opw }

/-- A failed response: as long as a successful one, with its data slots zero (R317). -/
def failData (n : Nat) : List Slot := List.replicate (n - 1) zeroSlot

/-- Whether any slot holds poison. -/
def anyPoison (l : List Slot) : Bool := l.any (·.poisoned)

/-- The response of a feeder port to a core (R370). -/
def portReply (p : Nat) (r : Reply) (data : List Slot) (code : Nat) : Msg :=
  let d := r.opw.toNat
  let data := if code = Config.ok then data else failData (replyLen 2 d)
  r.msg MT.portRsp p 510 data { Status.of code with flags := if anyPoison data then 2 else 0 }

/-- The answer of a feeder port to a core (R370). -/
def State.portAnswer (s : State) (p : Nat) (r : Reply) (data : List Slot) (code : Nat) : State := s.enterPort p (portReply p r data code)

/-- The answer of a host bay to a core (R448). -/
def State.bayAnswer (s : State) (b : Nat) (r : Reply) (data : List Slot) (code value : Nat) : State :=
  let d := r.opw.toNat
  let data := if code = Config.ok then data else failData (replyLen 3 d)
  let st := { Status.of code with flags := if anyPoison data then 2 else 0, v1 := value }
  s.enter (r.msg MT.hostRsp b 509 data st)

end Sys2Proof.Machine
end

