-- ==== Sys2Proof/Machine/Wsp.lean ====
section
/-! DEFINITION. The feeder port's side of the Wylyn Stream Protocol: frames, credit, retry, transactions and the reset of
its state (R351-R366, R379-R381). -/

namespace Sys2Proof.Machine

/-! ### Frame types (R356) -/

abbrev Ty.weightData : Nat := 1
abbrev Ty.readReq : Nat := 2
abbrev Ty.readRsp : Nat := 3
abbrev Ty.write : Nat := 4
abbrev Ty.grad : Nat := 5
abbrev Ty.sync : Nat := 6
abbrev Ty.cancel : Nat := 7
abbrev Ty.credit : Nat := 8
abbrev Ty.ack : Nat := 9
abbrev Ty.nak : Nat := 10
abbrev Ty.hello : Nat := 11
abbrev Ty.notice : Nat := 12

/-- The credit class of a sequenced type (R356, R362). -/
def frameClass (typ : Nat) : Nat :=
  if typ = 1 ∨ typ = 3 then 0 else if typ = 4 ∨ typ = 5 then 1 else if typ = 2 then 2 else 3

/-- The units that a frame of `n` slots costs (R363). -/
def frameCost (n : Nat) : Nat := (32 + 36 * n + 63) / 64

/-- A frame before it gets its sequence number (R355). -/
def mkFrame (typ session req : Nat) (body : Bytes) (slots : List Slot) (last : Bool) : Frame :=
  { ver := 1, typ := typ, cls := if typ ≥ 8 ∧ typ ≤ 11 then 0 else frameClass typ, sh := false, psn := anyPoison slots,
    last := last, frsv := 0, seq := 0, ack := 0, nslots := slots.length, session := session, req := req,
    body := BitVec.ofNat 160 (ofLe (padTo body 20)), slots := slots }

/-- The body of a frame as bytes. -/
def Frame.bodyBytes (f : Frame) : Bytes := le f.body.toNat 20

/-! ### Sending (R358-R364) -/

/-- A frame on the wire, to the feeder's address, or to every address for a HELLO (R348, R354). -/
def FPort.wire (p : FPort) (f : Frame) : TxWire :=
  { dst := if f.typ = Ty.hello then 2 ^ 48 - 1 else p.peerMac, src := p.mac, ethertype := 0x88B5, bytes := max 64 (50 + 36 * f.nslots), frame := f }

/-- A frame sent now: it carries the acknowledgement, and nothing more is owed (R359). -/
def FPort.send (p : FPort) (f : Frame) : FPort :=
  { p with sent := p.sent ++ [p.wire { f with ack := (p.rxNext + 65535) % 65536 }], owed := false, unreported := 0 }

/-- Detections in the codewords of a payload: no poison (R354, R383). -/
def detections (l : List Slot) : Nat :=
  let d (c : Cw) : Nat := b2n (c == .correctable || c == .uncorrectable)
  (l.map (fun x => d x.lo + d x.hi)).foldl (· + ·) 0

/-- Credit of a class, and shared credit, that a sender has left (R363, R364). -/
def FPort.resLeft (p : FPort) (c : Nat) : Nat := (Map.get 1024 p.gotRes c + 2 ^ 32 - Map.get 0 p.spentRes c) % 2 ^ 32
def FPort.sharedLeft (p : FPort) : Nat := (p.gotShared + 2 ^ 32 - p.spentShared) % 2 ^ 32

/-- Whether a waiting frame may be sent. -/
def FPort.covers (p : FPort) (f : Frame) : Bool :=
  decide (frameCost f.nslots ≤ p.resLeft (frameClass f.typ) ∨ frameCost f.nslots ≤ p.sharedLeft)

/-- Bytes of the retry buffer in use. -/
def FPort.retryBytes (p : FPort) : Nat := (p.retry.map (fun t => 32 + 36 * t.frame.nslots)).foldl (· + ·) 0

/-- The oldest waiting frame of a class that its credit covers, with the frames around it (R363). -/
def pickFrame (p : FPort) : List TxFrame → List Nat → Option (TxFrame × List TxFrame)
  | [], _ => none
  | t :: rest, held =>
    let c := frameClass t.frame.typ
    if !held.contains c && p.covers t.frame then some (t, rest)
    else (pickFrame p rest (c :: held)).map (fun r => (r.1, t :: r.2))

/-- The notice that follows a frame with poison (R380). -/
def noticeFor (f : Frame) : TxFrame :=
  let first := (f.slots.takeWhile (fun x => !x.poisoned)).length
  { frame := mkFrame Ty.notice f.session f.req (le f.seq 2 ++ le first 2 ++ le (poisonedSlots f.slots) 2) [] true,
    txn := f.req }

/-- Sends the next sequenced frame that credit and the retry buffer allow (R358, R363, R380). -/
def FPort.transmit (p : FPort) : FPort :=
  match pickFrame p p.waiting [] with
  | none => p
  | some (t, rest) =>
    if p.retry.length ≥ 32768 ∨ p.retryBytes + 32 + 36 * t.frame.nslots > 2 ^ 20 then p
    else
      let c := frameClass t.frame.typ
      let cost := frameCost t.frame.nslots
      let own := decide (cost ≤ p.resLeft c)
      let f := { t.frame with seq := p.txNext, sh := !own }
      let notice := if f.psn then [noticeFor f] else []
      { p.send f with
        txNext := (p.txNext + 1) % 65536
        waiting := notice ++ rest
        retry := p.retry ++ [{ t with frame := f }]
        spentRes := if own then Map.upd 0 p.spentRes c (fun v => (v + cost) % 2 ^ 32) else p.spentRes
        spentShared := if own then p.spentShared else (p.spentShared + cost) % 2 ^ 32
        cwDetect := satAdd p.cwDetect (detections f.slots) 32
        txns := p.txns.map (fun x => if x.req = t.txn ∧ x.seq.isNone then { x with seq := some f.seq } else x) }

/-- Whether an acknowledgement of `a` covers sequence number `q`. -/
def ackCovers (a q : Nat) : Bool := decide ((a + 65536 - q) % 65536 < 32768)

/-- An acknowledgement frees retry-buffer space as soon as it arrives (R361). -/
def FPort.freed (p : FPort) (a : Nat) : FPort :=
  let rest := p.retry.filter (fun t => !ackCovers a t.frame.seq)
  if rest.length = p.retry.length then p
  else { p with retry := rest, txAcked := a, resends := 0, inflight := none }

/-- Frames sent again, in order (R360). -/
def FPort.resendFrom (p : FPort) (q : Nat) : FPort :=
  let again := p.retry.filter (fun t => !decide (t.frame.seq ≠ q ∧ ackCovers q t.frame.seq))
  { again.foldl (fun p t => p.send t.frame) p with
    retrans := satAdd p.retrans again.length 32, inflight := if again.isEmpty then p.inflight else some q }

/-! ### Transactions -/

/-- A fresh transaction identifier. -/
def FPort.freshReq (p : FPort) : Nat :=
  (((List.range (p.txns.length + 1)).map (fun i => (p.reqNext + i) % 65536)).find?
    (fun r => !p.txns.any (fun t => t.req == r))).getD p.reqNext

/-- A new transaction without particulars. -/
def Txn.blank (kind forme : Nat) : Txn :=
  { req := 0, kind := kind, forme := forme, replies := [], part := none, parts := [], next := 0, total := 0, route := 0,
    got := [], seq := none, cancelled := false, refused := none }

/-- The session of a port's binding. -/
def FPort.session (p : FPort) : Nat :=
  match p.bound with
  | some b => b.session
  | none => 0

/-- Opens a transaction with the frame that carries it, in a session. -/
def FPort.openTxnIn (p : FPort) (session : Nat) (t : Txn) (typ : Nat) (body : Bytes) (slots : List Slot) : FPort :=
  let r := p.freshReq
  { p with
    reqNext := (r + 1) % 65536
    txns := p.txns ++ [{ t with req := r }]
    waiting := p.waiting ++ [{ frame := mkFrame typ session r body slots true, txn := r }] }

/-- Opens a transaction in the session of the port's binding. -/
def FPort.openTxn (p : FPort) (t : Txn) (typ : Nat) (body : Bytes) (slots : List Slot) : FPort := p.openTxnIn p.session t typ body slots

/-- A transaction by its identifier. -/
def FPort.txn (p : FPort) (r : Nat) : Option Txn := p.txns.find? (fun t => t.req == r)

/-- Removes a transaction. -/
def FPort.dropTxn (p : FPort) (r : Nat) : FPort := { p with txns := p.txns.filter (fun t => t.req != r) }

/-- Sends CANCEL for a range of transactions and waits for its answer (R379). -/
def FPort.cancelRange (p : FPort) (a b : Nat) : FPort :=
  { p with
    cancels := p.cancels ++ [(a, b)]
    waiting := p.waiting ++ [{ frame := mkFrame Ty.cancel p.session a (le a 2 ++ le b 2 ++ zeros 2) [] true, txn := 65536 }] }

/-- Whether a transaction is cancelled and waits for the feeder's answer. -/
def FPort.isCancelled (p : FPort) (r : Nat) : Bool :=
  p.cancels.any (fun c => decide ((r + 65536 - c.1) % 65536 ≤ (c.2 + 65536 - c.1) % 65536))

/-! ### Parts of split commands on a port -/

/-- The fields of an ACCUMULATE_OUT part with a feeder target, and of a stream part (R436). -/
def Part.source (x : Part) : Nat := bytesAt x.desc 1 1
def Part.step (x : Part) : Nat := bytesAt x.desc 2 2
def Part.first (x : Part) : Nat := bytesAt x.desc 4 4
def Part.last (x : Part) : Nat := bytesAt x.desc 8 4
def Part.fmt (x : Part) : Nat := bytesAt x.desc 12 1
def Part.want (x : Part) : Nat := bytesAt x.desc 16 8

/-- A part of an outstanding command. -/
def State.part (s : State) (r : PartRef) : Option Part := ((s.ring r.ring).cmd r.sq).bind (fun c => c.parts[r.part]?)

/-- Changes a part of an outstanding command. -/
def State.updPart (s : State) (r : PartRef) (f : Part → Part) : State :=
  match (s.ring r.ring).cmd r.sq with
  | none => s
  | some c =>
    match c.parts[r.part]? with
    | none => s
    | some p => s.putCmd r.ring { c with parts := c.parts.set r.part (f p) }

/-- Completes a part with a status; a stream part leaves its port digest (R551). -/
def State.endPart (s : State) (r : PartRef) (st : Nat) : State := s.finishPart r.ring r.sq r.part st

/-- An accumulate part with a feeder target completes when it has its slots and every frame is final (R376). -/
def State.settlePart (s : State) (r : PartRef) : State :=
  match s.part r with
  | none => s
  | some x =>
    let full := if x.source = 0 then decide (x.want ≤ x.progress) else x.sentAll
    if x.done.isNone && full && x.frames == 0 then s.endPart r Config.ok else s

/-! ### The outcome of a transaction -/

/-- The port digest of a stream part (R551): the slots that it injected. -/
def State.streamDigest (s : State) (p : Nat) (t : Txn) : State :=
  match t.part with
  | some r => s.portDigest p 0 r.part r.sq (some t.forme) t.got
  | none => s

/-- The gradient-copy record of a frame whose outcome is known (R553). -/
def State.gradCopy (s : State) (p : Nat) (t : Txn) (outcome : Nat) : State :=
  if t.kind = 3 then
    let b := t.route
    s.proofRecord 4 (some t.forme) (if anyPoison t.got then 1 else 0)
      (le p 1 ++ le (bits b 25 24) 1 ++ le (b / 2 ^ 32) 2 ++ le b 4 ++ le (b / 2 ^ 48) 4)
      (le t.next 4 ++ le t.got.length 2 ++ le outcome 1 ++ zeros 1 ++ le (slotDigest t.got) 8)
  else s

/-- The port digests of core READs that fail: no slot of theirs arrives (R548, R551; log 112, DEDUCED). -/
def State.readsFailed (s : State) (p : Nat) (t : Txn) : State :=
  if t.kind = 0 then s.forAll t.replies (fun s r => s.portDigest p 1 r.sport r.core (some t.forme) []) else s

/-- A transaction ends with a status that is not OK: its requests are answered and its parts fail (R353, R374, R379,
R381). -/
def State.failTxn (s : State) (p : Nat) (t : Txn) (st : Nat) : State :=
  let s := s.updFport p (·.dropTxn t.req)
  let s := (s.gradCopy p t st).readsFailed p t
  let s := s.forAll t.replies (fun s r => s.portAnswer p r [] st)
  let s := match t.part with
    | some r => (s.streamDigest p t).endPart r st
    | none => s
  s.forAll t.parts (fun s x => s.endPart x.1 st)

/-- A WRITE or GRAD_ACCUM frame whose acknowledgement is final (R361, R370, R376). -/
def State.acceptTxn (s : State) (p : Nat) (t : Txn) : State :=
  let s := s.updFport p (·.dropTxn t.req)
  let s := s.gradCopy p t Config.ok
  let s := s.forAll t.replies (fun s r => s.portAnswer p r [] Config.ok)
  s.forAll t.parts (fun s x => (s.updPart x.1 (fun y => { y with frames := y.frames - 1 })).settlePart x.1)

/-- An acknowledgement becomes final: every WRITE and GRAD_ACCUM that it covers has been accepted (R361). -/
def State.finalAck (s : State) (p a : Nat) : State :=
  let l := (s.fport p).txns.filter (fun t => (t.kind == 2 || t.kind == 3) && (match t.seq with
    | some q => ackCovers a q
    | none => false))
  s.forAll l (fun s t => s.acceptTxn p t)

/-- An acknowledgement arrives: it frees retry-buffer space at once, and waits until it is final (R361). -/
def FPort.noteAck (x : FPort) (a limit : Nat) : FPort := { x.freed a with pendAcks := x.pendAcks ++ [(a, limit)] }

/-- An acknowledgement is final once every frame up to its limit has been received in order (R361). -/
def State.settleAcks (s : State) (p : Nat) : State :=
  let x := s.fport p
  let due (e : Nat × Nat) : Bool := ackCovers ((x.rxNext + 65535) % 65536) e.2
  let s := s.updFport p (fun x => { x with pendAcks := x.pendAcks.filter (fun e => !due e) })
  s.forAll (x.pendAcks.filter due) (fun s e => s.finalAck p e.1)

/-- Fails a stream transaction that the feeder is still answering: its part fails and CANCEL is sent (R373, R379). -/
def State.breakStream (s : State) (p : Nat) (t : Txn) (st : Nat) : State :=
  let s := match t.part with
    | some r => (s.streamDigest p t).endPart r st
    | none => s
  s.updFport p (fun x =>
    { x.cancelRange t.req t.req with txns := x.txns.map (fun u => if u.req = t.req then { u with cancelled := true } else u) })

/-- Cancels streams whose part has failed and stream and read transactions that no longer have a forme to serve
(R379). -/
def State.sweepCancels (s : State) (p : Nat) : State :=
  let dead := (s.fport p).txns.filter (fun t => t.kind == 1 && !t.cancelled && (match t.part with
    | some r => match s.part r with
      | some x => x.done.isSome
      | none => true
    | none => true))
  s.forAll dead (fun s t =>
    (s.streamDigest p t).updFport p (fun x =>
      { x.cancelRange t.req t.req with txns := x.txns.map (fun u => if u.req = t.req then { u with cancelled := true } else u) }))

/-! ### Posting and resetting (R351, R353) -/

/-- Posts FEEDER_LINK (R351, R534). -/
def State.postLink (s : State) (p link reason : Nat) : State :=
  s.post (RecSpec.event Config.clsFeederLink 5 p (le link 1 ++ le reason 1))

/-- The answer LINK_DOWN to the core requests that wait at a port (R353); connection messages keep waiting. -/
def State.flushOps (s : State) (p st : Nat) : State :=
  let ops := (s.fport p).ops
  let s := s.updFport p (fun x => { x with ops := ops.filter (fun m => m.typ != MT.portOp) })
  s.forAll (ops.filter (fun m => m.typ == MT.portOp)) (fun s m => s.portAnswer p m.reply [] st)

/-- The reset of a port's WSP state (R353): transfers fail, requests are answered, sequence numbers and credit restart.
An outstanding SYNC stays (R378). -/
def State.resetWsp (s : State) (p : Nat) : State :=
  let x := s.fport p
  let s := s.forAll (x.txns.filter (fun t => t.kind ≤ 3)) (fun s t =>
    if t.cancelled then s.updFport p (·.dropTxn t.req) else s.failTxn p t Config.linkDown)
  let s := s.forAll (s.portParts p) (fun s r => s.endPart r Config.linkDown)
  let s := s.flushOps p Config.linkDown
  let frames := (x.openWrite.map (·.replies)).getD [] ++ (x.openGrad.map (·.replies)).getD []
  let s := s.forAll frames (fun s r => s.portAnswer p r [] Config.linkDown)
  s.updFport p (fun x => { x with
    txns := (x.txns.filter (fun t => t.kind == 4)).map (fun t => { t with seq := none })
    inbox := [], waiting := [], retry := [], txNext := 0, rxNext := 0, nakFor := none, resends := 0, inflight := none,
    pendAcks := [], gotRes := [], gotShared := x.peerPool, spentRes := [], spentShared := 0, freedRes := [], freedShared := 0,
    owed := false, unreported := 0, openWrite := none, openGrad := none, cancels := [], fresh := true })

/-- Sends each outstanding SYNC again after a link-up, but for one that still waits to be sent (R378). -/
def State.resendSyncs (s : State) (p : Nat) : State :=
  s.forAll ((s.fport p).txns.filter (fun t => t.kind == 4 && t.seq.isNone && !(s.fport p).waiting.any (fun w => w.txn == t.req))) (fun s t =>
    s.updFport p (fun x => { x with
      waiting := x.waiting ++ [{ frame := mkFrame Ty.sync x.session t.req (le t.route 12) [] true, txn := t.req }] }))

/-- The body of a SYNC (R357, R377). -/
def syncBody (tree : Nat) (isOr : Bool) (epoch contributor : Nat) : Bytes :=
  le (tree + b2n isOr * 16) 1 ++ zeros 3 ++ le epoch 4 ++ le contributor 4

/-- Starts the exchange of an external tree whose local condition is met (R377). -/
def State.startSync (s : State) (f t : Nat) : State :=
  let tr := Map.get Tree.init (s.forme f).trees t
  let epoch := (tr.releases + 1) % 2 ^ 32
  let contributor := match (s.fport tr.port).bound with
    | some b => b.contributor
    | none => 0
  let body := syncBody t tr.isOr epoch contributor
  let s := s.updForme f (fun x => { x with trees := Map.upd Tree.init x.trees t (fun y => { y with sync := some epoch }) })
  s.updFport tr.port (fun x => x.openTxn { Txn.blank 4 f with next := t, route := ofLe body } Ty.sync body [])

end Sys2Proof.Machine
end

