-- ==== Sys2Proof/Machine/Feeder.lean ====
section
/-! DEFINITION. The commands of a feeder port but SYNC: core requests, frames sent and received, timers and link states
(R347-R384). -/

namespace Sys2Proof.Machine

/-! ### Receiving (R348, R356-R361) -/

/-- A port's MAC address, its first byte highest (R348). -/
def State.portMac (s : State) (p : Nat) : Nat := (0x02 :: s.mgmt.identity.take 4 ++ [BitVec.ofNat 8 p]).foldl (fun a b => a * 256 + b.toNat) 0

/-- Whether the receiving MAC accepts a frame (R348). -/
def State.macOk (s : State) (p : Nat) (f : RxFrame) : Bool :=
  decide (f.ethertype = 0x88B5 ∧ f.vlan = false ∧ 64 ≤ f.bytes ∧ f.bytes ≤ 9266 ∧ f.fcsOk = true)
    && (decide (f.dst = s.portMac p) || (decide (f.frame.typ = Ty.hello) && decide (f.dst = 2 ^ 48 - 1)))

/-- A frame counted in proto_err. -/
def State.protoErr (s : State) (p : Nat) : State := s.updFport p (fun x => { x with protoErr := satAdd x.protoErr 1 32 })

/-- A port's clock in MHz (R465). -/
def State.portMHz (s : State) (p : Nat) : Nat := if s.clocks.pinQualified then (s.fport p).ptc else 500

/-- Whether a port that is too slow for its line drops a frame: a free bit (R467, R468; log 76, DESIGN CHOICE). -/
def State.slowDrop (s : State) (p : Nat) : Bool × State :=
  if s.portMHz p < 790 then (Config.freeNat s.free % 2 == 1, { s with free := s.free + 1 }) else (false, s)

/-- The FEC blocks that arrived with a frame are counted (R383). -/
def State.countFec (s : State) (p : Nat) (f : RxFrame) : State :=
  s.updFport p (fun x => { x with fecCorr := satAdd x.fecCorr f.fecCorr 32, fecUncorr := satAdd x.fecUncorr f.fecUncorr 32 })

/-- What a port does with an arriving frame of a type before its meaning: its FEC counts (R383), then the MAC's checks and the header's
(R348, R356). -/
def State.receive (s : State) (p : Nat) (f : RxFrame) (typ : Nat) (act : State → State) : State :=
  let l := (s.fport p).link
  if l ≠ 2 ∧ l ≠ 3 then s
  else
    let d := s.slowDrop p
    let s := d.2.countFec p f
    if d.1 then s
    else if !s.macOk p f then s.updFport p (fun x => { x with frameDrop := satAdd x.frameDrop 1 32 })
    else if f.frame.ver ≠ 1 ∨ f.frame.typ = 0 ∨ 13 ≤ f.frame.typ then s.protoErr p
    else if f.frame.typ ≠ typ ∨ (l = 2 ∧ typ ≠ Ty.hello) then s
    else act s

/-- Sends a standalone ACK (R359). -/
def FPort.sendAck (p : FPort) : FPort :=
  p.send (mkFrame Ty.ack 0 0 (le ((p.txNext + 65535) % 65536) 2) [] true)

/-- A receiver frees a consumed frame's units (R364). -/
def FPort.consume (p : FPort) (f : Frame) : FPort :=
  let cost := frameCost f.nslots
  if f.sh then { p with freedShared := (p.freedShared + cost) % 2 ^ 32 }
  else { p with freedRes := Map.upd 0 p.freedRes (frameClass f.typ) (fun v => (v + cost) % 2 ^ 32) }

/-! ### The receive buffer (R364, R371, R373, R384) -/

/-- Whether a port can serve a route word: its mode, rsv and dkind, and a dest that R243 admits (R372). -/
def routeOk (r : Nat) : Bool :=
  bit r 63 && decide (bits r 62 45 = 0) && (decide (bits r 17 16 = 0 ∧ bits r 35 27 < 448) || decide (bits r 17 16 = 1 ∧ bits r 35 30 = 0))

/-- The core through whose column a GROUP message of a port enters: the forme's first present edge core (log 25, DEDUCED). -/
def State.groupEntry (s : State) (p f : Nat) : Nat :=
  let y := if p < 8 then 0 else 447
  (((List.range 64).map (fun i => coreAt (64 * (p % 8) + i) y)).find? (fun c => (s.forme f).covers c && s.presentIn f c)).getD
    (coreAt (64 * (p % 8)) y)

/-- The core at whose router a message of a port enters (R259). -/
def State.portEntry (s : State) (p : Nat) (m : Msg) : Nat := if m.dkind = 0 then portExit p m.dest else s.groupEntry p m.forme

/-- The router input that a port feeds. -/
def portInput (p : Nat) : Nat := if p < 8 then 0 else 2

/-- Whether the fabric takes a message of a port now (R237, R373). -/
def State.portRoom (s : State) (p : Nat) (m : Msg) : Bool :=
  let r := s.router (s.portEntry p m)
  let k := portInput p * 2 + m.vc
  (Map.get [] r.wait k).isEmpty && decide (r.flitsAt k + m.flits ≤ inputFlits m.vc)

/-- A frame dropped for its cancelled transaction (R379). -/
def State.cancelDropped (s : State) (p : Nat) : State := s.updFport p (fun x => { x with cancelDrop := satAdd x.cancelDrop 1 32 })

/-- The oldest frame leaves the receive buffer, and its units are free (R364). -/
def FPort.popInbox (x : FPort) (f : Frame) : FPort := { x with inbox := x.inbox.drop 1 }.consume f

/-- A stream's frame has entered the fabric whole: its slots count for the part, which completes with the last (R371, R382). -/
def State.frameIn (s : State) (p : Nat) (f : Frame) : State :=
  match (s.fport p).txn f.req with
  | none => s
  | some t =>
    let s := match t.part with
      | none => s
      | some r =>
        let s := s.updPart r (fun y => { y with progress := y.progress + f.slots.length })
        match (s.ring r.ring).cmd r.sq with
        | some c => if c.prf then s.updFinger r.ring r.sq 1 0 (fingerFmt (t.route % 16)) r.part (fun g => f.slots.foldl Finger.addSlot g) else s
        | none => s
    let t' := { t with got := t.got ++ f.slots }
    let s := s.updFport p (fun x => { x with txns := x.txns.map (fun u => if u.req = t.req then t' else u) })
    if t'.got.length = t.total then
      let s := s.updFport p (·.dropTxn t.req)
      match t.part with
      | some r => (s.streamDigest p t').endPart r Config.ok
      | none => s
    else s

/-- The frames of the receive buffer enter the fabric in order as far as it takes them; one of a stream that has ended is discarded (R373, R379),
and a dark field ends the injection (R384). -/
def State.pumpN (s : State) (p : Nat) : Nat → State
  | 0 => s
  | n + 1 =>
    match (s.fport p).inbox with
    | [] => s
    | i :: rest =>
      let stream := decide (i.frame.typ = Ty.weightData)
      let live := match (s.fport p).txn i.frame.req with
        | some t => decide (t.kind = 1) && !t.cancelled
        | none => false
      if stream && !live then ((s.updFport p (·.popInbox i.frame)).cancelDropped p).pumpN p n
      else if stream && (s.field (portField p)).dark then
        match (s.fport p).txn i.frame.req with
        | some t => ((s.updFport p (·.popInbox i.frame)).breakStream p t Config.thermal).pumpN p n
        | none => s
      else
        match i.msgs with
        | [] =>
          let s := s.updFport p (·.popInbox i.frame)
          (if stream then s.frameIn p i.frame else s).pumpN p n
        | m :: l =>
          if s.portRoom p m then
            ((s.updFport p (fun x => { x with inbox := { i with msgs := l } :: rest })).comeIn (s.portEntry p m) (portInput p) m).pumpN p n
          else s

/-- Enough turns to empty the receive buffer. -/
def FPort.inboxTurns (x : FPort) : Nat := (x.inbox.map (fun i => i.msgs.length + 1)).foldl (· + ·) 0

/-- The receive buffer empties as far as the fabric takes its frames. -/
def State.pump (s : State) (p : Nat) : State := s.pumpN p (s.fport p).inboxTurns

/-- Whether the body bytes in the ranges are zero, and the flags' reserved bits. -/
def Frame.rsvOk (f : Frame) (ranges : List (Nat × Nat)) : Bool :=
  decide (f.frsv = 0) && ranges.all (fun r => zeroAt f.bodyBytes r.1 r.2)

/-- The transactions that a range names. -/
def FPort.inRange (p : FPort) (a b : Nat) : List Txn :=
  p.txns.filter (fun t => decide ((t.req + 65536 - a) % 65536 ≤ (b + 65536 - a) % 65536))

/-- The live transfers that a frame names: a CANCEL those of its range, another frame that of its header (R355, R357). -/
def FPort.named (p : FPort) (f : Frame) : List Txn :=
  (if f.typ = Ty.cancel then p.inRange (bytesAt f.bodyBytes 0 2) (bytesAt f.bodyBytes 2 2) else p.inRange f.req f.req).filter (fun t =>
    !t.cancelled && decide (t.kind ≤ 3))

/-- A bad frame is counted, and each transfer that it names fails with FAULT, a stream with a CANCEL (R357, R379); a SYNC stays outstanding
(log 107, DEDUCED). -/
def State.badFrame (s : State) (p : Nat) (f : Frame) : State :=
  let s := s.protoErr p
  s.forAll ((s.fport p).named f) (fun s t => if t.kind = 1 then s.breakStream p t Config.faultCode else s.failTxn p t Config.faultCode)

/-- A sequenced frame taken in order, or discarded with one NAK; it acts before the acknowledgement that it carries can be final, and its
units are freed unless its payload goes to the receive buffer (R357, R359, R361, R364). -/
def State.receiveSeq (s : State) (p : Nat) (f : RxFrame) (typ : Nat) (ok : Bool) (act : State → State) : State :=
  s.receive p f typ (fun s =>
    let x := s.fport p
    if f.frame.seq ≠ x.rxNext then
      if x.nakFor = some x.rxNext then s
      else s.setFport p { x.send (mkFrame Ty.nak 0 0 (le x.rxNext 2) [] true) with nakFor := some x.rxNext }
    else
      let x := { x with
        rxNext := (x.rxNext + 1) % 65536, nakFor := none, owed := true, unreported := x.unreported + 1,
        cwDetect := satAdd x.cwDetect (detections f.frame.slots) 32 }
      let s := s.setFport p ((if x.unreported ≥ 32 then x.sendAck else x).noteAck f.frame.ack f.frame.seq)
      let held := (s.fport p).inbox.length
      let s := if ok then act s else s.badFrame p f.frame
      let s := if held < (s.fport p).inbox.length then s else s.updFport p (·.consume f.frame)
      (s.settleAcks p).pump p)

/-! ### Frames built from core messages (R369, R374, R376) -/

/-- Closes an open frame: it waits for credit under a port-assigned transaction (R374). -/
def State.closeFrame (s : State) (p : Nat) (grad : Bool) : State :=
  let x := s.fport p
  match (if grad then x.openGrad else x.openWrite) with
  | none => s
  | some o =>
    let word := o.bucket + o.copy * 2 ^ 24 + o.fmt * 2 ^ 26
    let body := if grad then le word 4 ++ le o.step 2 ++ zeros 2 ++ le o.contributor 4 ++ le o.start 4 else le o.start 8
    let t := { Txn.blank (if grad then 3 else 2) o.forme with
      replies := o.replies, parts := o.parts, next := o.start, got := o.slots,
      route := word + o.step * 2 ^ 32 + o.contributor * 2 ^ 48 }
    let x := if grad then { x with openGrad := none } else { x with openWrite := none }
    s.setFport p (x.openTxnIn o.session t (if grad then Ty.grad else Ty.write) body o.slots)

/-- The slots that a frame to the peer may have (R357, R374). -/
def FPort.room (p : FPort) : Nat := if p.peerMax = 0 then 256 else min 256 p.peerMax

/-- Whether a message may join an open frame of at most `room` slots (R374). -/
def OpenFrame.joins (o m : OpenFrame) (room : Nat) : Bool :=
  decide (o.forme = m.forme ∧ o.session = m.session ∧ o.bucket = m.bucket ∧ o.step = m.step ∧ o.fmt = m.fmt
    ∧ o.contributor = m.contributor ∧ o.copy = m.copy ∧ m.start = o.start + o.slots.length * (if o.grad then 1 else 32)
    ∧ o.slots.length + m.slots.length ≤ room)

/-- Adds to the counts of parts a frame carries. -/
def mergeParts (a b : List (PartRef × Nat)) : List (PartRef × Nat) :=
  b.foldl (fun l x => if l.any (fun y => y.1 == x.1) then l.map (fun y => if y.1 = x.1 then (y.1, y.2 + x.2) else y) else l ++ [x]) a

/-- Appends a message to the open frame of its type, closing that frame first when it does not fit and after when it is
full (R374). -/
def State.appendOne (s : State) (p : Nat) (m : OpenFrame) : State :=
  let x := s.fport p
  let cur := if m.grad then x.openGrad else x.openWrite
  let s := match cur with
    | some o => if o.joins m x.room then s else s.closeFrame p m.grad
    | none => s
  let x := s.fport p
  let cur := if m.grad then x.openGrad else x.openWrite
  let old := match cur with
    | some o => o.parts
    | none => []
  let o := match cur with
    | some o => { o with slots := o.slots ++ m.slots, replies := o.replies ++ m.replies, parts := mergeParts o.parts m.parts }
    | none => m
  let s := s.setFport p (if m.grad then { x with openGrad := some o } else { x with openWrite := some o })
  let s := s.forAll m.parts (fun s r =>
    if old.any (fun y => y.1 == r.1) then s else s.updPart r.1 (fun y => { y with frames := y.frames + 1 }))
  if x.room ≤ o.slots.length then s.closeFrame p m.grad else s

/-- Appends a message; one that is longer than the peer's largest payload goes in pieces, and the answer waits for the last (R357, R374; log
106, DESIGN CHOICE). -/
def State.append (s : State) (p : Nat) (m : OpenFrame) : State :=
  let k := (s.fport p).room
  let n := (m.slots.length + k - 1) / k
  s.forAll (List.range n) (fun s i => s.appendOne p { m with
    start := m.start + i * k * (if m.grad then 1 else 32), slots := (m.slots.drop (i * k)).take k
    replies := if i + 1 = n then m.replies else [], parts := if i + 1 = n then m.parts else [] })

/-- Counts GRAD slots against the core-source parts of the forme on the port, in part order; the rest are excess
(R376). -/
def State.countGrad (s : State) (p f bucket step n : Nat) : List (PartRef × Nat) × State :=
  let mine := (s.portParts p).filter (fun r =>
    r.ring == f && (match s.part r with
      | some x => x.source == 0 && x.step == step && decide (x.first ≤ bucket ∧ bucket ≤ x.last)
      | none => false))
  let r := mine.foldl (fun (a : List (PartRef × Nat) × Nat × State) q =>
    match a.2.2.part q with
    | some x =>
      let k := min a.2.1 (x.want - x.progress)
      if k = 0 then a else (a.1 ++ [(q, k)], a.2.1 - k, a.2.2.updPart q (fun y => { y with progress := y.progress + k }))
    | none => a) ([], n, s)
  if mine.isEmpty ∨ r.2.1 = 0 then (r.1, r.2.2)
  else (r.1, r.2.2.updFport p (fun x => { x with excess := satAdd x.excess r.2.1 32 }))

/-- Whether a PORT_OP obeys R369. -/
def portOpOk (m : Msg) : Bool :=
  let d := m.desc
  let n := dLen d
  decide (m.len = m.slots.length) && decide (dFlags d = 0) && decide (1 ≤ n ∧ n ≤ 7)
    && (if dOp d = 1 then decide (dAddr d % 32 = 0 ∧ dArg d = 0 ∧ m.len = 0)
        else if dOp d = 2 then decide (dAddr d % 32 = 0 ∧ dArg d = 0 ∧ m.len = n)
        else if dOp d = 3 then
          decide (dAddr d < 2 ^ 24 ∧ bits (dArg d) 23 0 ≠ 0 ∧ bits (dArg d) 25 24 ≠ 3 ∧ bits (dArg d) 31 26 = 0 ∧ m.len = n)
        else false)

/-- Serves the first core request of a port when it is of an operation: a bad one is BADARG, one of a forme that the port
is not bound to BADSTATE, one without a link LINK_DOWN; while the hold runs it waits (R353, R369, log 24, DEDUCED). -/
def State.servePort (s : State) (p op : Nat) (act : Msg → Binding → State → State) : State :=
  let x := s.fport p
  match x.ops.find? (fun m => m.typ == MT.portOp) with
  | none => s
  | some m =>
    let rest := { x with ops := x.ops.erase m }
    if dOp m.desc ≠ op ∧ portOpOk m then s
    else if x.hold ∧ x.link ≠ 3 then s
    else
      let s := s.setFport p rest
      if x.link ≠ 3 then s.portAnswer p m.reply [] Config.linkDown
      else if !portOpOk m then s.portAnswer p m.reply [] Config.badArg
      else
        match x.bound with
        | some b => if b.forme = m.forme then act m b s else s.portAnswer p m.reply [] Config.badState
        | none => s.portAnswer p m.reply [] Config.badState

/-- PORT_READ: a core's READ becomes its own READ_REQ. -/
def execPortRead (p : Nat) (s : State) : Out :=
  .next (s.servePort p 1 (fun m _ s =>
    s.updFport p (fun x => x.openTxn { Txn.blank 0 m.forme with replies := [m.reply], total := dLen m.desc }
      Ty.readReq (le (dAddr m.desc) 8 ++ le (dLen m.desc) 4) [])))

/-- PORT_WRITE: a core's WRITE joins the open WRITE frame; its slots count in class 2 of the RUN segment (R554). -/
def execPortWrite (p : Nat) (s : State) : Out :=
  .next (s.servePort p 2 (fun m b s =>
    (s.runData m.forme 2 (m.tag % 16) m.slots).append p {
      grad := false, forme := m.forme, session := b.session, bucket := 0, step := 0, fmt := 0, contributor := 0, copy := 0,
      start := dAddr m.desc, slots := m.slots, replies := [m.reply], parts := [] }))

/-- The contributor and copy index that a GRAD of a bucket carries (R367). -/
def State.stereoOf (s : State) (f bucket : Nat) (b : Binding) : Nat × Nat :=
  match (s.forme f).stereo.find? (fun e => decide (e.first ≤ bucket ∧ bucket ≤ e.last)) with
  | some e => (e.contributor, e.copy)
  | none => (b.contributor, 0)

/-- The format code of an accumulate format field (R315, R357). -/
def accFmt (f : Nat) : Nat := if f = 2 then 0xB else f

/-- GRAD: a core's gradient joins the open GRAD_ACCUM frame and counts for the parts that expect it (R367, R374,
R376). -/
def execGradOp (p : Nat) (s : State) : Out :=
  .next (s.servePort p 3 (fun m b s =>
    let bucket := bits (dArg m.desc) 23 0
    let fmt := bits (dArg m.desc) 25 24
    let st := s.stereoOf m.forme bucket b
    let s := s.runData m.forme 3 (accFmt fmt) m.slots
    let r := s.countGrad p m.forme bucket m.tag m.slots.length
    let s := r.2.forAll r.1 (fun s q =>
      match (s.ring q.1.ring).cmd q.1.sq with
      | some c => if c.prf then s.updFinger q.1.ring q.1.sq 2 0 (fingerFmt (accFmt fmt)) q.1.part (fun g =>
          (m.slots.take q.2).foldl Finger.addSlot g) else s
      | none => s)
    s.append p {
      grad := true, forme := m.forme, session := b.session, bucket := bucket, step := m.tag, fmt := fmt,
      contributor := st.1, copy := st.2, start := dAddr m.desc, slots := m.slots, replies := [m.reply], parts := r.1 }))

/-- FRAME_CLOSE_TIMEOUT: an open frame closes 256 port clock cycles after it opened. -/
def execFrameCloseTimeout (p : Nat) (g : Bool) (s : State) : Out := .next (s.closeFrame p g)

/-- FRAME_TRANSMIT: the next frame that credit covers is sent; a stream whose part has failed is cancelled first. -/
def execFrameTransmit (p : Nat) (s : State) : Out :=
  .next (let s := (s.sweepCancels p).pump p
    if (s.fport p).link = 3 then s.updFport p (·.transmit) else s)

/-! ### Data in (R370, R373) -/


/-- A slice of a payload as one fabric message (R373). -/
def streamMsg (p f route : Nat) (l : List Slot) : Msg :=
  let k := bits route 17 16
  let dest := if k = 0 then bits route 35 18 else bits route 29 18
  { Msg.mk0 (if k = 0 then MT.data else MT.group) 0 f k dest p 510 0 l with
    galley := bits route 39 36, cls := bits route 41 40, tag := bits route 15 0 }

/-- A payload cut into messages of `k` slots. -/
def chunks (k : Nat) : Nat → List Slot → List (List Slot)
  | 0, _ => []
  | n + 1, l => if l.isEmpty then [] else l.take k :: chunks k n (l.drop k)

/-- The slots of an accepted WEIGHT_DATA wait in the receive buffer as fabric messages (R373). -/
def State.streamIn (s : State) (p : Nat) (t : Txn) (f : Frame) : State :=
  s.updFport p (fun x => { x with
    txns := x.txns.map (fun u => if u.req = t.req then { t with next := t.next + f.slots.length } else u)
    inbox := x.inbox ++ [⟨f, (chunks (bits t.route 44 42 + 1) f.slots.length f.slots).map (streamMsg p t.forme t.route)⟩] })

/-- WEIGHT_DATA. -/
def execWeightData (p : Nat) (f : RxFrame) (s : State) : Out :=
  let b := f.frame.bodyBytes
  let ok := f.frame.rsvOk [(4, 8)] && decide (1 ≤ f.frame.nslots ∧ f.frame.nslots ≤ 256 ∧ f.frame.nslots = f.frame.slots.length)
    && routeOk (bytesAt b 12 8)
  .next ((s.sweepCancels p).receiveSeq p f Ty.weightData ok (fun s =>
    if (s.fport p).isCancelled f.frame.req then s.cancelDropped p
    else
      match (s.fport p).txn f.frame.req with
      | none => s.protoErr p
      | some t =>
        if t.kind ≠ 1 then s.protoErr p
        else if bytesAt b 0 4 ≠ t.next ∨ t.total < t.next + f.frame.nslots then (s.protoErr p).breakStream p t Config.faultCode
        else if (s.field (portField p)).dark then s.breakStream p t Config.thermal
        else s.streamIn p t f.frame))

/-- READ_RSP: the data returns to the core that asked, through the receive buffer (R364, R370). -/
def execReadRsp (p : Nat) (f : RxFrame) (s : State) : Out :=
  let ok := f.frame.rsvOk [(8, 12)] && decide (1 ≤ f.frame.nslots ∧ f.frame.nslots ≤ 256 ∧ f.frame.nslots = f.frame.slots.length)
  .next (s.receiveSeq p f Ty.readRsp ok (fun s =>
    if (s.fport p).isCancelled f.frame.req then s.cancelDropped p
    else
      match (s.fport p).txn f.frame.req with
      | none => s.protoErr p
      | some t =>
        if t.kind ≠ 0 then s.protoErr p
        else if t.total ≠ f.frame.nslots then (s.protoErr p).failTxn p t Config.faultCode
        else
          let s := (s.updFport p (·.dropTxn t.req)).forAll t.replies (fun s r => s.portDigest p 1 r.sport r.core (some t.forme) f.frame.slots)
          s.updFport p (fun x => { x with inbox := x.inbox ++ [⟨f.frame, t.replies.map (fun r => portReply p r f.frame.slots Config.ok)⟩] })))

/-! ### Control frames (R360, R361, R364, R379, R380) -/

/-- CANCEL: an answer, a refusal or the end of transactions (R361, R379). -/
def execCancel (p : Nat) (f : RxFrame) (s : State) : Out :=
  let b := f.frame.bodyBytes
  let ok := f.frame.rsvOk [(6, 14)] && decide (bytesAt b 4 1 < 4 ∧ f.frame.nslots = 0 ∧ f.frame.slots = [])
  let a := bytesAt b 0 2
  let z := bytesAt b 2 2
  .next (s.receiveSeq p f Ty.cancel ok (fun s =>
    let live := ((s.fport p).inRange a z).filter (fun t => !t.cancelled && t.kind ≤ 3)
    if bit (bytesAt b 4 1) 0 then
      s.updFport p (fun x => { x with
        cancels := x.cancels.filter (fun c => c != (a, z))
        txns := x.txns.filter (fun t => !(t.cancelled && (x.inRange a z).any (fun u => u.req == t.req))) })
    else if bit (bytesAt b 4 1) 1 then
      let st := if bytesAt b 5 1 ≤ 0x10 then bytesAt b 5 1 else Config.faultCode
      s.forAll live (fun s t => s.failTxn p t st)
    else
      let s := s.forAll live (fun s t => s.failTxn p t Config.aborted)
      s.updFport p (fun x => { x with
        waiting := x.waiting ++ [{ frame := mkFrame Ty.cancel x.session a (le a 2 ++ le z 2 ++ le 1 1) [] true, txn := 65536 }] })))

/-- POISON_NOTICE: counted, and posted with the port and the frame's transaction. -/
def execPoisonNotice (p : Nat) (f : RxFrame) (s : State) : Out :=
  let b := f.frame.bodyBytes
  .next (s.receiveSeq p f Ty.notice (f.frame.rsvOk [(6, 14)] && decide (f.frame.nslots = 0 ∧ f.frame.slots = [])) (fun s =>
    let s := s.updFport p (fun x => { x with poisonRx := satAdd x.poisonRx 1 16 })
    s.post { RecSpec.event Config.clsUncorrected 5 p (le 8 1 ++ zeros 7 ++ le f.frame.req 2 ++ le (bytesAt b 0 2) 2 ++ zeros 4) with
      forme := (s.fport p).bound.map (·.forme), action := 2 }))

/-- A received CREDIT frame: the sender's running totals (R364). -/
def execWspCredit (p : Nat) (f : RxFrame) (s : State) : Out :=
  let b := f.frame.bodyBytes
  .next (s.receive p f Ty.credit (fun s => s.updFport p (fun x =>
    { x.freed f.frame.ack with
      gotRes := (List.range 4).foldl (fun m c => Map.set 1024 m c (bytesAt b (4 * c) 4)) x.gotRes, gotShared := bytesAt b 16 4 })))

/-- A received ACK. -/
def execAck (p : Nat) (f : RxFrame) (s : State) : Out :=
  .next (s.receive p f Ty.ack (fun s =>
    (s.updFport p (·.noteAck f.frame.ack (bytesAt f.frame.bodyBytes 0 2))).settleAcks p))

/-! ### Retransmission (R358-R360) -/

/-- The link is lost: WSP state is held (R351, R353). -/
def State.loseLink (s : State) (p reason : Nat) : State :=
  (s.updFport p (fun x => { x with link := 4, hold := true, losses := satAdd x.losses 1 16 })).postLink p 4 reason

/-- Every frame from `q` onward is sent again.  One that begins with the oldest frame counts, and when it has been sent again eight times in a
row the link is LOST instead (R360). -/
def State.retransmit (s : State) (p q : Nat) : State :=
  let x := s.fport p
  match x.retry with
  | [] => s
  | t :: _ =>
    if ackCovers t.frame.seq q then
      (if 8 ≤ x.resends then s.loseLink p 1 else s.setFport p { x.resendFrom q with resends := x.resends + 1 })
    else s.setFport p (x.resendFrom q)

/-- A received NAK: every frame from nseq is sent again, unless a retransmission from a lower number is in progress. -/
def execNak (p : Nat) (f : RxFrame) (s : State) : Out :=
  let q := bytesAt f.frame.bodyBytes 0 2
  .next (s.receive p f Ty.nak (fun s =>
    let s := s.updFport p (fun x => { x.freed f.frame.ack with nakRx := satAdd x.nakRx 1 32 })
    let later := match (s.fport p).inflight with
      | some k => decide (k ≠ q) && ackCovers q k
      | none => false
    if later then s else s.retransmit p q))

/-! ### HELLO (R352) -/

/-- Draws a new epoch when one is due. -/
def State.drawEpoch (s : State) (p : Nat) : State :=
  let x := s.fport p
  if x.fresh then
    let d := s.draw
    let e := d.1 % 2 ^ 32
    d.2.setFport p { x with epoch := if e = x.epoch then (e + 1) % 2 ^ 32 else e, fresh := false }
  else s

/-- Sends a HELLO (R352, R357). -/
def State.sendHello (s : State) (p : Nat) : State :=
  (s.drawEpoch p).updFport p (fun x =>
    { x with mac := s.portMac p }.send (mkFrame Ty.hello 0 0 (le x.epoch 4 ++ le x.rxNext 2 ++ le 256 2 ++ le Config.poolUnits 4 ++ zeros 1) [] true))

/-- A received HELLO: the link comes UP, resuming WSP under the recorded epoch and resetting it under another (R351,
R352). -/
def execHello (p : Nat) (f : RxFrame) (s : State) : Out :=
  let b := f.frame.bodyBytes
  let e := bytesAt b 0 4
  .next (s.receive p f Ty.hello (fun s =>
    if (s.fport p).link ≠ 2 then s
    else if bytesAt b 12 1 ≠ 1 ∨ bytesAt b 6 2 = 0 ∨ 256 < bytesAt b 6 2 then s.protoErr p
    else
      let x := s.fport p
      let same := decide (x.peerEpoch = some e)
      let other := x.peerEpoch.isSome && !same
      let s := if other then (s.resetWsp p).sendHello p else s
      let s := s.updFport p (fun x =>
        let x := { x with
          link := 3, hold := false, peerEpoch := some e, peerMac := f.src, peerMax := bytesAt b 6 2, peerPool := bytesAt b 8 4
          resends := 0, inflight := none }
        if same then
          let q := bytesAt b 4 2
          ({ x with retry := x.retry.filter (fun t => !decide (t.frame.seq ≠ q ∧ ackCovers q t.frame.seq)) }).resendFrom q
        else { x with gotShared := bytesAt b 8 4 })
      (s.resendSyncs p).postLink p 3 (if other then 4 else 5)))

/-! ### Timers and link states (R351-R353, R359, R360, R364) -/

/-- HELLO_TIMER: one HELLO every 2^20 port clock cycles in state HELLO. -/
def execHelloTimer (p : Nat) (s : State) : Out := .next (if (s.fport p).link = 2 then s.sendHello p else s)

/-- ACK_TIMER: a receiver that has owed an acknowledgement for 512 cycles sends ACK. -/
def execAckTimer (p : Nat) (s : State) : Out :=
  .next (let s := s.pump p
    if (s.fport p).link = 3 ∧ (s.fport p).owed then s.updFport p (·.sendAck) else s)

/-- RETRANSMIT_TIMEOUT: the oldest frame and all after it are sent again; after eight in a row the link is LOST. -/
def execRetransmitTimeout (p : Nat) (s : State) : Out :=
  .next (match (s.fport p).link, (s.fport p).retry with
    | 3, t :: _ => s.retransmit p t.frame.seq
    | _, _ => s)

/-- CREDIT_REPEAT: the receiver's running totals (R364); none while the proof recorder is full (R452). -/
def execCreditRepeat (p : Nat) (s : State) : Out :=
  .next (let s := s.pump p
    if (s.fport p).link = 3 ∧ ¬ s.proofFull then
      s.updFport p (fun x => x.send (mkFrame Ty.credit 0 0
        ((List.range 4).flatMap (fun c => le (1024 + Map.get 0 x.freedRes c) 4) ++ le (Config.poolUnits + x.freedShared) 4) [] true))
    else s)

/-- HOLD_EXPIRY: where the hold runs the WSP state is reset, and a LOST port trains (R353). -/
def execHoldExpiry (p : Nat) (s : State) : Out :=
  .next (if (s.fport p).hold ∧ (s.fport p).link ≠ 3 then
      (s.resetWsp p).updFport p (fun x => { x with hold := false, link := if x.link = 4 then 1 else x.link })
    else s)

/-- TRAINING_TIMEOUT: training starts again. -/
def execTrainingTimeout (p : Nat) (s : State) : Out :=
  .next (s.updFport p (fun x => if x.link = 1 then { x with link := 1 } else x))

/-- PCS_ALIGNED: where training succeeds a LOST port is in TRAINING, and from TRAINING a port comes to HELLO, whose first HELLO is sent
(R351); without the reference no port trains (R465). -/
def execPcsAligned (p : Nat) (s : State) : Out :=
  .next (if ¬ s.clocks.pinQualified then s
    else if (s.fport p).link = 4 then s.updFport p (fun x => { x with link := 1 })
    else if (s.fport p).link = 1 then (s.updFport p (fun x => { x with link := 2 })).sendHello p
    else s)

/-- PCS_ALIGNMENT_LOST: UP to LOST. -/
def execPcsAlignmentLost (p : Nat) (s : State) : Out := .next (if (s.fport p).link = 3 then s.loseLink p 0 else s)

/-- The port goes OFF; from UP its WSP state is held until HOLD_EXPIRY (log 26, DEDUCED). -/
def State.portOff (s : State) (p reason : Nat) : State :=
  if (s.fport p).link = 0 then s
  else (s.updFport p (fun x => { x with link := 0, hold := x.hold || decide (x.link = 3) })).postLink p 0 reason

/-- MODULE_INSERT: a pluggable module is accepted, and the port trains, or is refused (R349); a cage whose port is not enabled
has no power (R589). -/
def execModuleInsert (p : Nat) (taui8 : Bool) (watts : Nat) (s : State) : Out :=
  .next (if (s.fport p).seated ∨ ¬ s.portPresent p then s
    else
      let good := taui8 && decide (watts ≤ 28)
      let s := s.updFport p (fun x => { x with
        seated := true, accepted := good, link := if good then 1 else x.link })
      if good then s else s.postLink p 0 2)

/-- MODULE_REMOVE: the cage is empty and the port OFF (R351, R590). -/
def execModuleRemove (p : Nat) (s : State) : Out :=
  .next ((s.portOff p 3).updFport p (fun x => { x with seated := false, accepted := false }))

end Sys2Proof.Machine
end

