-- ==== Sys2Proof/Machine/Power.lean ====
section
/-! DEFINITION. The pause of a forme at its layer quoin, and soft start (R279, R306, R477). -/

namespace Sys2Proof.Machine

/-! ### The pause of a layer quoin (R279, R306) -/

/-- The pending-dark fields of a forme's rectangle. -/
def State.pendingFields (s : State) (f : Nat) : List Nat :=
  ((List.range 56).filter (fun fd => (s.field fd).pendingDark)).filter (fun fd => (s.formesOn fd).contains f)

/-- The forme pauses at its layer tree's release: its pending-dark fields go dark, which faults another forme that uses one, and its
commands end with THERMAL (R52, R279, R306). -/
def State.pauseForme (s : State) (f : Nat) : State :=
  let l := s.pendingFields f
  let s := (s.agePatience f).updForme f (fun x => { x with
    state := 4, status := Config.thermal, faultClass := Config.clsFieldDark, faultCore := none, faultCode := 0, halting := false })
  let s := s.forAll l (fun s fd => (s.darken fd).darkNotice fd 1)
  let s := s.endCommands f { Compl.bare Config.thermal with detail := Config.clsFieldDark }
  (s.forAll l (fun s fd => s.darkFaults fd f)).settleDark allFields

/-! ### Soft start (R477) -/

/-- A cluster begins its soft start. -/
def State.softStart (s : State) (k : Nat) : State := s.updCluster k (fun x => { x with soft := 1 })

/-- The allowance in force: interval k gives k eighths of the grant, rounded up. -/
def Cluster.allowance (x : Cluster) : Nat := if x.soft = 0 then x.grant else (x.soft * x.grant + 7) / 8

end Sys2Proof.Machine
end

