-- ==== Sys2Proof/Machine/Quoin.lean ====
section
/-! DEFINITION. Readiness of blocks, wake-wire trees and their releases, windows, and the census (R57-R59, R270-R275, R285,
R297-R303). -/

namespace Sys2Proof.Machine

/-! ### Readiness (R57-R59, R64-R69) -/

/-- Block `n` of a core. -/
def Core.blockAt (x : Core) (n : Nat) : Block := Map.get Block.init x.blocks n

/-- Whether a block's enable bit is set. -/
def Core.enabled (x : Core) (n : Nat) : Bool := if n < 32 then x.en0.getLsbD n else x.en1.getLsbD (n - 32)

/-- The galleys that a block names and that hold no complete item. -/
def Core.emptyInputs (x : Core) (b : Block) : List Nat := (maskList b.inputs 16).filter (fun g => (x.galley g).items.isEmpty)

/-- Whether a send port counts as ready (R57, R58). -/
def Port.ready (p : Port) : Bool := p.state == PortSt.closed || (p.state == PortSt.openSt && decide (p.slots ≤ p.credit))

/-- The ports that a block names and that are not ready. -/
def Core.shortPorts (x : Core) (b : Block) : List Nat := (maskList b.sends 16).filter (fun n => !(x.port n).ready)

/-- Whether a block is ready, the core not waiting at a quoin (R57). -/
def Core.blockReady (x : Core) (n : Nat) : Bool :=
  x.enabled n && (x.emptyInputs (x.blockAt n)).isEmpty && (x.shortPorts (x.blockAt n)).isEmpty

/-- The blocks in the order in which they would fire: highest priority first, and within one priority from the block
after the one that fired last (R59). -/
def Core.fireOrder (x : Core) : List Nat :=
  [3, 2, 1, 0].flatMap (fun p =>
    ((List.range 64).map (fun i => (Map.get 0 x.nextBlock p + i) % 64)).filter (fun n => (x.blockAt n).prio == p))

/-- The block that fires, if any. -/
def Core.chooseReady (x : Core) : Option Nat := x.fireOrder.find? x.blockReady

/-- The chosen block of R303: the first that R59 would fire if every enabled block were ready. -/
def Core.chosen (x : Core) : Option Nat := x.fireOrder.find? x.enabled

/-! ### Windows (R285) -/

/-- Whether a window covers every byte of a range with a right: 0 read, 1 write, 2 accumulate. -/
def Window.admits (w : Window) (a n right : Nat) : Bool :=
  w.rights.testBit 3 && w.rights.testBit right && decide (w.base ≤ a ∧ a + n ≤ w.limit + 1)

/-- Whether a host window of a forme admits an access. -/
def State.hostAdmits (s : State) (f a n right : Nat) : Bool := (s.forme f).host.any (fun e => e.2.admits a n right)

/-- Whether a near-tier window of a forme admits an access. -/
def State.nearAdmits (s : State) (f a n right : Nat) : Bool := (s.forme f).near.any (fun e => e.2.admits a n right)

/-! ### Trees (R270-R275) -/

/-- A tree of a forme. -/
def State.tree (s : State) (f t : Nat) : Tree := Map.get Tree.init (s.forme f).trees t

/-- A forme with one tree changed. -/
def State.updTree (s : State) (f t : Nat) (g : Tree → Tree) : State :=
  s.updForme f (fun x => { x with trees := Map.upd Tree.init x.trees t g })

/-- The present member cores of a tree. -/
def State.members (s : State) (f t : Nat) : List Nat := (s.formeCores f).filter (fun c => (s.core c).trees.testBit t)

/-- Whether a tree's release condition is met (R271): some member has arrived and, on an AND tree, every one. -/
def State.treeMet (s : State) (f t : Nat) : Bool :=
  let tr := s.tree f t
  !tr.arrived.isEmpty && (tr.isOr || (s.members f t).all (fun c => tr.arrived.contains c))

/-- Starts the SYNC exchange of an external tree whose condition is met and that has none outstanding (R275, R377). -/
def State.trySync (s : State) (f t : Nat) : State :=
  if (s.tree f t).external && (s.tree f t).sync.isNone && s.treeMet f t then s.startSync f t else s

/-- A core leaves QUOIN wait (R67, R271). -/
def Core.leaveQuoin (x : Core) : Core := { x.wake with st := .sleep }

/-- Whether WAIT_QUOIN's condition holds (R300). -/
def quoinReached (releases target : Nat) : Bool := decide ((releases + 2 ^ 32 - target % 2 ^ 32) % 2 ^ 32 < 2 ^ 31)

/-- Completes the WAIT_QUOIN commands that a tree's counter satisfies (R300). -/
def State.finishWaits (s : State) (f t : Nat) : State :=
  let n := (s.tree f t).releases
  s.forAll ((s.ring f).cmds.filter (fun c =>
    c.opcode == 0x1006 && bytesAt c.entry 16 1 % 16 == t && quoinReached n (bytesAt c.entry 20 4)))
    (fun s c => s.finish f c (Compl.okWith n))

/-- Whether some core of a forme has a block running. -/
def State.anyRunning (s : State) (f : Nat) : Bool :=
  (s.formeCores f).any (fun c => match (s.core c).st with
    | .run => true
    | .commit => true
    | .replay => true
    | _ => false)

/-- Whether a router holds a message that satisfies a condition. -/
def Router.has (r : Router) (p : Msg → Bool) : Bool :=
  r.inq.any (fun e => e.2.any (fun b => p b.msg)) || r.wait.any (fun e => e.2.any p) || r.ejq.any (fun e => e.2.any p) || r.held.any (fun h => p h.msg)

/-- Whether a message of a forme is a WRITE or a REPORT to a host bay (R447). -/
def Msg.toHost (m : Msg) (f : Nat) : Bool := m.forme == f && m.typ == MT.hostOp && decide (m.opw.toNat % 256 = 2 ∨ m.opw.toNat % 256 = 3)

/-- Whether no write of a forme's cores to host memory is on its way: in the fabric, at a bay, or as a closed report record (R426). -/
def State.hostQuiet (s : State) (f : Nat) : Bool :=
  !s.routers.any (fun e => e.2.has (·.toHost f)) && !s.bays.any (fun e => e.2.ops.any (·.toHost f)) && !s.reports.any (fun p => p.forme == f)

/-- Whether the writes that an ended command waits for are visible: a RUN's, or a MARK's event record, which an event ring that is not enabled
does not hold up (R426; log 103, DEDUCED). -/
def State.writesDone (s : State) (r : Nat) (c : Cmd) : Bool :=
  match c.ended with
  | none => false
  | some e => if c.opcode = 0x1005 then s.hostQuiet r else decide ((s.ring 72).state ≠ 1) || !e.2.any s.mgmt.evHold.contains

/-- Completes the ended commands whose writes are visible (R426). -/
def State.settleEnded (s : State) : State :=
  s.forAll (s.rings.flatMap (fun e => (e.2.cmds.filter (s.writesDone e.1)).map (fun c => (e.1, c)))) (fun s e =>
    s.finish e.1 e.2 (Compl.okWith ((e.2.ended.map (·.1)).getD 0)))

/-- The end of a halt: the forme is LOADED once its last running block has committed, and its RUN completes when its writes to host memory
are visible (R426); what else is outstanding ends too, and a field that waited for its layer quoin goes dark (R279, R299, R300, R307, R321, log 27, DEDUCED). -/
def State.settleHalt (s : State) (f : Nat) : State :=
  if (s.forme f).halting && !s.anyRunning f then
    let s := (s.agePatience f).endSegment f false
    let s := s.updForme f (fun x => { x with
      state := 2, halting := false, status := Config.ok, faultClass := 0, faultCore := none, faultCode := 0 })
    let s := s.forAll ((s.ring f).cmds.filter (·.ofForme)) (fun s c =>
      if c.opcode = 0x1005 then s.putCmd f { c with ended := some (0, []) }
      else if c.parts.isEmpty then
        s.finish f c (if c.opcode = 0x1006 then Compl.okWith (s.tree f (bytesAt c.entry 16 1 % 16)).releases else Compl.done)
      else
        let c' := { c with parts := c.parts.map (fun p => if p.done.isSome then p else { p with done := some (256 + Config.ok) }) }
        (s.putCmd f c').finishParts f c' true)
    s.settleEnded.settleDark allFields
  else s

/-- A release of a tree (R271, R299, R300, R306, R308, R377, R477): its counter and the soft start of its members' clusters; in a RUNNING
forme the WAIT_QUOINs, the layer's segment, then the pause of a layer quoin, or the members woken and the halt. -/
def State.releaseTree (s : State) (f t : Nat) : State :=
  let x := s.forme f
  let tr := s.tree f t
  let out := if tr.isOr then tr.arrived.take 1 else tr.arrived
  let s := s.updTree f t (fun y => { y with
    arrived := y.arrived.drop out.length, sync := none, releases := (y.releases + 1) % 2 ^ 32 })
  let s := s.forAll (((s.members f t).map clusterOf).eraseDups) (fun s k => s.softStart k)
  if x.state ≠ 3 then s
  else
    let s := s.finishWaits f t
    let s := if x.watch.testBit t then s.updForme f (fun y => { y with waited := 0 }) else s
    let s := if x.layer = some t then s.endSegment f false else s
    if x.layer = some t ∧ ¬ (s.pendingFields f).isEmpty then s.pauseForme f
    else
      let s := s.forAll out (fun s c =>
        s.updCore c (fun y => if y.st = .quoin ∧ y.tree = t then y.leaveQuoin else y))
      let s := s.trySync f t
      if x.halt = some t then (s.updForme f (fun y => { y with halting := true })).settleHalt f else s

/-- The arrival of a core on a tree at commit (R62, R63, R271): a member waits, another core goes on. -/
def State.arriveQuoin (s : State) (f c t : Nat) : State :=
  if (s.core c).trees.testBit t then
    (((s.updCore c (fun x => { x with st := .quoin, tree := t, gated := true })).updTree f t (fun y => { y with
      arrived := y.arrived ++ [c] }))).trySync f t
  else s.updCore c (fun x => { x.leaveQuoin with tree := t })

/-! ### Classes of R301 -/

/-- Running: a block has fired and not committed, or an enabled block is ready. -/
def Core.classRunning (x : Core) : Bool :=
  match x.st with
  | .run => true
  | .commit => true
  | .replay => true
  | .sleep => (List.range 64).any x.blockReady
  | _ => false

/-- Waiting external: not running, and only empty external galleys hold an enabled block, or an external tree's SYNC is outstanding. -/
def State.classExternal (s : State) (f c : Nat) : Bool :=
  let x := s.core c
  !x.classRunning && match x.st with
  | .sleep => (List.range 64).any (fun n => x.enabled n && (x.shortPorts (x.blockAt n)).isEmpty
      && (x.emptyInputs (x.blockAt n)).all (fun g => x.extGalleys.testBit g))
  | .quoin => (s.tree f x.tree).external && (s.tree f x.tree).sync.isSome
  | _ => false

/-- Blocked: in QUOIN wait or with an enabled block, and neither running nor waiting external. -/
def State.classBlocked (s : State) (f c : Nat) : Bool :=
  let x := s.core c
  !x.classRunning && !s.classExternal f c && (match x.st with
    | .quoin => true
    | .sleep => x.chosen.isSome
    | _ => false)

/-- The word of a control token (R89). -/
def tokenWord (i : Item) : Nat := (i.msg.slots.headD zeroSlot).data.toNat % 2 ^ 32

/-- The selection in force at a steering unit: of the token that it holds, or of the one that it would take. -/
def Core.steerSel (x : Core) (u : Steer) : Option Nat :=
  if u.run ≠ 0 then some u.sel else (x.galley u.ctl).items.head?.map (fun i => tokenWord i % 2)

/-- Whether a steering unit of a core could forward (R90). -/
def Core.steerReady (x : Core) : Bool :=
  (List.range 4).any (fun n =>
    let u := x.steer n
    match u.en, x.steerSel u, (x.galley u.data).items.head? with
    | true, some sel, some i =>
      let p := x.port (if sel = 0 then u.portA else u.portB)
      p.state == PortSt.closed || (p.state == PortSt.openSt && decide (i.msg.slots.length ≤ p.credit))
    | _, _, _ => false)

/-- Whether a router holds a message of a forme (R301). -/
def Router.holds (r : Router) (f : Nat) : Bool := r.has (fun m => m.forme == f)

/-- Whether a cluster votes all-blocked (R301, R304, log 28, DEDUCED). -/
def State.votes (s : State) (f k : Nat) : Bool :=
  let cs := (clusterCores k).filter (s.presentIn f)
  cs.all (fun c => !(s.core c).classRunning && !(s.core c).steerReady && !(s.router c).holds f)
    && cs.any (fun c => s.classBlocked f c)

/-! ### The census (R302, R303) -/

/-- One census entry. -/
def censusEntry (c kind index block count : Nat) (ext : Bool) : Nat :=
  coreX c + coreY c * 2 ^ 9 + kind * 2 ^ 18 + index * 2 ^ 20 + b2n ext * 2 ^ 24 + block * 2 ^ 25 + count * 2 ^ 32

/-- The census entries of a core, by kind and index. -/
def State.coreCensus (s : State) (f c : Nat) : List Nat :=
  let x := s.core c
  if s.classBlocked f c || s.classExternal f c then
    let n := x.chosen.getD x.block
    let steer := ((List.range 4).filter (fun u =>
      decide ((x.steer u).run ≠ 0) || ((x.steer u).en && !(x.galley (x.steer u).data).items.isEmpty))).map (fun u =>
        censusEntry c 3 u n (min (x.steer u).run 1023) false)
    if x.st = .quoin then censusEntry c 2 x.tree n 0 (s.tree f x.tree).external :: steer
    else
      (x.emptyInputs (x.blockAt n)).map (fun g => censusEntry c 0 g n 0 (x.extGalleys.testBit g))
        ++ (x.shortPorts (x.blockAt n)).map (fun p => censusEntry c 1 p n ((x.port p).credit % 1024) false) ++ steer
  else []

/-- Faults a forme with DEADLOCK or TIMEOUT and writes its census (R301, R302, R534). -/
def State.censusFault (s : State) (f status cls : Nat) : State :=
  let x := s.forme f
  let all := (s.formeCores f).flatMap (s.coreCensus f)
  let room := decide (x.censusCap ≠ 0) && s.hostAdmits f x.censusAddr (64 + 8 * x.censusCap) 1
  let some' := if room then all.take x.censusCap else []
  let d := s.draw
  let ic := d.1 % 2 ^ 64
  let head := le 0x534E4543 4 ++ le f 1 ++ le status 1 ++ zeros 2 ++ le some'.length 4 ++ le all.length 4 ++ le ic 8 ++ zeros 40
  let s := if room then d.2.ringWrite f x.censusAddr (head ++ some'.flatMap (fun e => le e 8)) else d.2
  s.faultForme f {
    status := status, cls := cls, core := none, code := 0, action := 0, unitKind := 0, unit := 0,
    detail := le some'.length 4 ++ le all.length 4 ++ le ic 8, census := some (some'.length, room) }

end Sys2Proof.Machine
end

