-- ==== Sys2Proof/Machine/Block.lean ====
section
/-! DEFINITION. Blocks and steering units: firing, commit, re-execution, steering, and what ends a forme's run (R56-R69, R88-R106,
R271, R301-R308, R377, R505, R517, R520, R521). -/

namespace Sys2Proof.Machine

/-! ### Firing (R59, R60, R97, R103) -/

/-- The snapshot of R97. -/
def Core.snapshot (x : Core) : Snapshot :=
  { s := x.s, p := x.p, v := x.v, acc := x.acc, rng := x.rng, h0 := x.h0.ctl, h1 := x.h1.ctl }

/-- A block fires: its heads are fixed, its credit reserved, its snapshot taken. -/
def Core.fire (x : Core) (n : Nat) : Core :=
  let b := x.blockAt n
  let heads := (maskList b.inputs 16).filterMap (fun g => ((x.galley g).front).map (fun i => (g, i)))
  let x := heads.foldl (fun y h => if anyPoison h.2.msg.slots then y.setFlag Flag.psn else y) x
  let x := (maskList b.sends 16).foldl (fun y p => y.updPort p (fun q =>
    if q.state = PortSt.openSt then
      { q with credit := q.credit - q.slots, reserved := q.slots, staged := none, sent := false, lost := false }
    else { q with reserved := 0, staged := none, sent := false, lost := false })) x
  { x with
    st := .run, block := n, pc := b.start, ended := false, gated := false, fails := 0, replayed := false, heads := heads,
    nextBlock := Map.set 0 x.nextBlock b.prio ((n + 1) % 64), firingQuoin := none, banks := [], closing := [], releasing := [],
    unfenced := [], snap := if b.replay then some x.snapshot else none }

/-- A failing evaluation: after two in a row the execution clock is gated (R66). -/
def Core.failEval (x : Core) : Core := { x with fails := x.fails + 1, gated := decide (1 ≤ x.fails) }

/-- Whether a core evaluates readiness. -/
def State.evaluates (s : State) (c : Nat) : Bool :=
  decide ((s.core c).st = .sleep) && !(s.core c).gated && s.executing c
    && (match s.formeOf c with
        | some f => !(s.forme f).halting
        | none => false)

/-- READINESS_EVALUATION. -/
def execReadinessEvaluation (c : Nat) (o : Obs) (s : State) : Out :=
  .next (if s.evaluates c then
      let s := s.updCore c (·.upsets o)
      if o.parity then s.controlParity (s.formeOf c) 1 c
      else s.updCore c (fun x => match x.chooseReady with
        | some n => x.fire n
        | none => x.failEval)
    else s)

/-! ### Commit (R62, R63, R73, R99, R202, R216, R228, R323) -/

/-- The credit that a committed message keeps deducted: its length, or the response length of a request. -/
def Port.spends (p : Port) (m : Msg) : Nat := if p.kind = 0 then m.len else replyLen p.kind m.desc

/-- A port at commit: its staged message enters it, or is discarded when the port has closed since, even if it is OPEN again; unused
credit returns (R62, R73). -/
def Cx.commitPort (x : Cx) (n : Nat) : Cx :=
  let p := x.core.port n
  let clear (q : Port) : Port := { q with reserved := 0, staged := none, sent := false, lost := false }
  match p.staged with
  | none => x.mapCore (fun c => c.updPort n (fun q =>
      clear (if q.state = PortSt.openSt then { q with credit := q.credit + q.reserved } else q)))
  | some m =>
    if p.state = PortSt.openSt ∧ p.lost = false then
      { x.mapCore (fun c => c.updPort n (fun q => clear { q with credit := q.credit + q.reserved - q.spends m })) with
        msgs := x.msgs ++ [m] }
    else x.mapCore (fun c => (c.updPort n clear).discard n)

/-- A CLOSE to the unit that a port is open to. -/
def Cx.closeTo (x : Cx) (n : Nat) : Cx :=
  let p := x.core.port n
  { x with msgs := x.msgs ++ [{ closeMsgTo x.core.forme x.me p.dest n false with dkind := p.dkind }] }

/-- CHCLOSE kind 0 takes effect: the port is IDLE, and an OPEN one sends CLOSE (R200, R202). -/
def Cx.closePort (x : Cx) (n : Nat) : Cx :=
  let y := if (x.core.port n).state = PortSt.openSt then x.closeTo n else x
  y.mapCore (fun c => c.updPort n (fun q => { q with state := PortSt.idle, credit := 0 }))

/-- What a core does at commit but for its quoin arrival. -/
def Cx.commit (x : Cx) : Cx :=
  let x := x.core.heads.foldl (fun y h => y.release h.1 h.2) x
  let x := (List.range 16).foldl Cx.commitPort x
  let x := x.core.closing.foldl Cx.closePort x
  let x := x.mapCore (fun c => c.releasing.foldl (fun d h => d.setHalf h Half.init) c)
  x.mapCore (fun c => { c with
    st := .sleep, ended := false, gated := false, fails := 0, heads := [], firingQuoin := none, banks := [], closing := [],
    releasing := [], unfenced := [], snap := none })

/-- The tree that a committing block arrives on (R56, R172). -/
def Core.commitTree (x : Core) : Option Nat :=
  match x.firingQuoin with
  | some t => some t
  | none => x.running.quoin

/-- The banks that fail the commit check: those written that hold an element whose rres is not the residue of its A, or, when a mismatch
is observed, any one written (R99, R156). -/
def Core.badBanks (x : Core) (seen : Bool) : List Nat :=
  let bad := x.banks.filter (fun k => (List.range 32).any (fun e => !(x.rdAcc (k / 4) (k % 4) e).residueOk))
  if bad.isEmpty && seen then x.banks else bad

/-- BLOCK_COMMIT: after END and the residue check of the banks the block wrote.  A fault of the check, as one of a steering unit, records
the current issue index and the block fired last (R118; log 90, DESIGN CHOICE). -/
def execBlockCommit (c : Nat) (o : Obs) (s : State) : Out :=
  .next (if (s.core c).st = .run ∧ (s.core c).ended ∧ s.executing c then
      let x := Cx.start c ((s.core c).upsets o) s.free
      let bad := x.core.badBanks o.residue
      if ¬ bad.isEmpty then
        let bank := bad.getD (Config.freeNat x.free % bad.length) 0
        s.settleCore c x.core.pc ({ x with free := x.free + 1 }.mismatch false (bank / 4) 0)
      else
        let t := x.core.commitTree
        let s := s.settleCore c x.core.pc x.commit
        let s := match t, s.formeOf c with
          | some t, some f => s.arriveQuoin f c t
          | _, _ => s
        match s.formeOf c with
        | some f => s.settleHalt f
        | none => s
    else s)

/-! ### Re-execution and the suspect window (R98, R517) -/

/-- The core restored from its snapshot, its block about to issue again. -/
def Core.restore (x : Core) : Core :=
  let x := x.setFlag Flag.rpl
  match x.snap with
  | none => x
  | some n =>
    { x with
      st := .run, pc := x.running.start, ended := false, replayed := true, s := n.s, p := n.p, v := n.v, acc := n.acc,
      rng := n.rng, h0 := { x.h0 with ctl := n.h0 }, h1 := { x.h1 with ctl := n.h1 }, firingQuoin := none, banks := [],
      closing := [], releasing := [], unfenced := [] }

/-- REPLAY: 32 ic after a mismatch the block's first instruction issues again. -/
def execReplayBlock (c : Nat) (s : State) : Out :=
  .next (if (s.core c).st = .replay ∧ s.executing c then s.updCore c Core.restore else s)

/-- SUSPECT_WINDOW_EXPIRY: the count returns to 0. -/
def execSuspectWindowExpiry (k : Nat) (s : State) : Out :=
  .next (s.updCluster k (fun x => if x.winOpen then { x with winOpen := false, mismatches := 0 } else x))

/-! ### Steering units (R65, R88-R93) -/

/-- Whether the running block names a galley or port of a steering unit (R65). -/
def Core.steerShared (x : Core) (u : Steer) : Bool :=
  match x.st with
  | .run =>
    let b := x.running
    b.inputs.testBit u.ctl || b.inputs.testBit u.data || b.sends.testBit u.portA || b.sends.testBit u.portB
  | _ => false

/-- The item that a steering unit takes next: the one that arrived first (R91; log 87, DEDUCED), or, where the unit shares a galley or port
with the running block, any (R65; log 77, DESIGN CHOICE). -/
def Cx.nextItem (x : Cx) (shared : Bool) (g : Nat) : Option Item × Cx :=
  let l := (x.core.galley g).items
  if shared then (l[Config.freeNat x.free % l.length]?, { x with free := x.free + 1 }) else (l.head?, x)

/-- Takes the next control token: a poisoned one is consumed poison, and one with a nonzero reserved field a fault.  The word read is in
bytes 0-15, whose codeword alone decides (R89, R102; log 88, DESIGN CHOICE). -/
def Cx.takeToken (x : Cx) (n : Nat) (shared : Bool) : Cx :=
  let u := x.core.steer n
  let t := x.nextItem shared u.ctl
  match t.1 with
  | none => t.2
  | some i =>
    let r := t.2.readSlot u.ctl i 0
    let w := r.1.data.toNat % 2 ^ 32
    if r.1.lo = .poison then r.2.halt FaultCode.poisonConsumed 6 Unit.steering
    else if bits w 31 17 ≠ 0 then r.2.halt FaultCode.steerToken n Unit.steering
    else r.2.mapCore (fun c => c.updSteer n (fun u => { u with run := bits w 16 1 + 1, sel := w % 2, tok := some (u.ctl, i) }))

/-- The credit of a port after a steered item of `n` slots: a port that the running block names too shares what is left with the block's
reservation in any way (R65; log 77, DESIGN CHOICE). -/
def Cx.spendSteered (x : Cx) (shared : Bool) (p n : Nat) : Cx :=
  let q := x.core.port p
  if shared then
    let left := q.credit + q.reserved - n
    let res := Config.freeNat x.free % (left + 1)
    { x with free := x.free + 1 }.mapCore (fun c => c.updPort p (fun q => { q with credit := left - res, reserved := res }))
  else x.mapCore (fun c => c.updPort p (fun q => { q with credit := q.credit - n }))

/-- Which item the running block reads from a galley that a unit shares with it: the one it fixed, or any that the galley holds now
(R65; log 77, DESIGN CHOICE). -/
def Cx.mixHead (x : Cx) (g : Nat) : Cx :=
  let l := (x.core.galley g).items
  match l[Config.freeNat x.free % (l.length + 1)]? with
  | none => { x with free := x.free + 1 }
  | some i => { x with free := x.free + 1 }.mapCore (fun c =>
      { c with heads := c.heads.map (fun (h : Nat × Item) => if h.1 = g then (g, i) else h) })

/-- Forwards a data item on the selected port, or discards it at a closed one; a spent token is released (R90-R92, R103).  The message
keeps the item's own tag (log 89, DESIGN CHOICE), and galleys or ports that two units share serve whichever unit forwards first, a control
galley named as data galley too its items as they stand (log 77, DESIGN CHOICE). -/
def Cx.forward (x : Cx) (n : Nat) (shared : Bool) : Cx :=
  let u := x.core.steer n
  let t := x.nextItem shared u.data
  match u.run, t.1 with
  | r + 1, some i =>
    let x := t.2
    let p := x.core.port u.out
    let len := i.msg.slots.length
    let fits := decide (len ≤ p.credit + (if shared then p.reserved else 0))
    if p.state = PortSt.closed ∨ (p.state = PortSt.openSt ∧ fits) then
      let x := x.foundPoison (anyPoison i.msg.slots)
      let y := if p.state = PortSt.closed then x.mapCore (fun c => c.discard u.out)
        else
          let m := { x.core.sendMsg x.me u.out i.msg.tag p i.msg.slots with count := 1 }
          { x.spendSteered shared u.out len with msgs := x.msgs ++ [m] }
      let y := (y.release u.data i).mapCore (fun c => c.updSteer n (fun u => { u with run := r }))
      let y := if r = 0 then y.dropToken n else y
      if shared then (y.mixHead u.data).mixHead u.ctl else y
    else x
  | _, _ => t.2

/-- Whether a core's steering units work: its forme is RUNNING, or, as a free bit says, FAULTED, where R104 lets them go on and R281 does not
(log 82, DEDUCED). -/
def State.steering (s : State) (c : Nat) : Bool × State :=
  match s.formeOf c with
  | some f =>
    if (s.forme f).state = 5 then
      let d := s.draw
      (d.1 % 2 == 1 && !s.died c && !s.mgmt.resetWait, d.2)
    else (s.executing c, s)
  | none => (false, s)

/-- STEER_FORWARD: a unit without a token takes one, and a unit with one forwards an item; where the unit shares a galley or port with the
running block, it does either or nothing (R65, R88-R93, R104). -/
def execSteerForward (c u : Nat) (o : Obs) (s : State) : Out :=
  let g := s.steering c
  let s := g.2
  .next (if g.1 && ((s.core c).steer u).en then
      let x := s.core c
      let shared := x.steerShared (x.steer u)
      let y := Cx.start c (x.upsets o) s.free
      let b := if shared then y.freeBit else (true, y)
      if b.1 then
        let y := if (b.2.core.steer u).run = 0 then b.2.takeToken u shared else b.2
        s.settleCore c x.pc (if y.stop.isSome then y else y.forward u shared)
      else s.settleCore c x.pc b.2
    else s)

/-! ### Quoins, the census and patience (R271, R301, R308, R377) -/

/-- QUOIN_RELEASE: a tree without an external exchange releases once its condition is met. -/
def execQuoinRelease (f t : Nat) (s : State) : Out :=
  .next (if (s.forme f).state = 3 ∧ (s.tree f t).external = false ∧ s.treeMet f t then s.releaseTree f t else s)

/-- A received SYNC with RELEASE releases the external tree whose epoch is outstanding (R377). -/
def execSync (p : Nat) (f : RxFrame) (s : State) : Out :=
  let b := f.frame.bodyBytes
  let ok := f.frame.rsvOk [(1, 3), (12, 8)] && decide (bits (bytesAt b 0 1) 6 5 = 0 ∧ bytesAt b 8 4 < 2 ^ 20)
    && decide (f.frame.nslots = 0 ∧ f.frame.slots = [])
  let t := bytesAt b 0 1 % 16
  .next (s.receiveSeq p f Ty.sync ok (fun s =>
    match (s.fport p).bound with
    | none => s.protoErr p
    | some bd =>
      let tr := s.tree bd.forme t
      if bit (bytesAt b 0 1) 7 ∧ tr.external = true ∧ tr.port = p ∧ tr.sync = some (bytesAt b 4 4) then
        (s.updFport p (fun x => { x with
          txns := x.txns.filter (fun u => !(u.kind == 4 && u.forme == bd.forme && u.next == t)) })).releaseTree bd.forme t
      else s.protoErr p))

/-- DEADLOCK: every present cluster has voted all-blocked for 2^12 keeper ic. -/
def execDeadlock (f : Nat) (s : State) : Out :=
  .next (if (s.forme f).state = 3 ∧ ((s.forme f).clusters.filter (s.clusterPresentIn f)).all (s.votes f) then
      s.censusFault f Config.deadlock Config.clsDeadlock else s)

/-- Whether the patience count advances: a forme command other than its own RUN is outstanding, or some core is running or blocked (R301,
R304; log 95, DEDUCED). -/
def State.impatient (s : State) (f : Nat) : Bool :=
  (s.ring f).cmds.any (fun c => c.ofForme && c.opcode != 0x1005) || (s.formeCores f).any (fun c => (s.core c).classRunning || s.classBlocked f c)

/-- PATIENCE_EXPIRY. -/
def execPatienceExpiry (f : Nat) (s : State) : Out :=
  .next (if (s.forme f).state = 3 ∧ s.impatient f then s.censusFault f Config.timeout Config.clsWatchdog else s)

/-! ### The end of draining (R106, R282, R438) -/

/-- A core reset (R106): its core store and its CS_FORME stay (R277). -/
def Core.afterReset (x : Core) : Core := { Core.init with store := x.store, ecc := x.ecc, forme := x.forme, mapGen := x.mapGen }

/-- The report assemblies of some cores, and of a forme, that a bay gives up (R450). -/
def State.dropAssemblies (s : State) (gone : Assembly → Bool) : State :=
  { s with bays := s.bays.map (fun (e : Nat × Bay) => (e.1, { e.2 with asms := e.2.asms.filter (fun a => !gone a) })) }

/-- The runs of a forme that a counter cleared now has taken in: all but one that is going on (R559, R560). -/
def Forme.countedNow (x : Forme) : Nat := if x.state = 3 then x.runs - 1 else x.runs

/-- A router's messages of a forme discarded and counted in absorbed (R282). -/
def Router.drain (r : Router) (f : Nat) : Router :=
  let n := (r.inq.map (fun e => (e.2.filter (fun b => b.msg.forme == f)).length)).foldl (· + ·) 0
    + (r.wait.map (fun e => (e.2.filter (fun m => m.forme == f)).length)).foldl (· + ·) 0
    + (r.ejq.map (fun e => (e.2.filter (fun m => m.forme == f)).length)).foldl (· + ·) 0
    + (r.held.filter (fun h => h.msg.forme == f)).length
  { r with
    inq := r.inq.map (fun e => (e.1, e.2.filter (fun b => b.msg.forme != f)))
    wait := r.wait.map (fun e => (e.1, e.2.filter (fun m => m.forme != f)))
    ejq := r.ejq.map (fun e => (e.1, e.2.filter (fun m => m.forme != f)))
    held := r.held.filter (fun h => h.msg.forme != f)
    absorbed := satAdd r.absorbed n 32 }

/-- Dead rows of every listed column, recomputed for the columns that no open forme but `f` holds (R26). -/
def State.recompute (s : State) (f : Nat) : State :=
  let keys := ((s.hellbox.filter (fun e => e.kind == 1)).map (fun e => e.field * 64 + e.col)).eraseDups
  s.forAll keys (fun s k => if s.columnHeld k f then s else { s with columns := Map.set [] s.columns k (deadRows s.hellbox k) })

/-- A forme's contexts freed in every station (R279, R338). -/
def State.freeContexts (s : State) (f : Nat) : State :=
  { s with stations := s.stations.map (fun (e : Nat × Station) => (e.1, { e.2 with
      ctx := e.2.ctx.map (fun (c : Nat × Ctx) =>
        if c.2.live ∧ c.2.forme = f then
          (c.1, { c.2 with live := false, generation := (c.2.generation + 1) % 2 ^ 32 })
        else c) })) }

/-- A forme closes: it is EMPTY, its contexts are free, and its columns are computed again, with a new map generation when the map then
shows another state of one (R26, R42, R279). -/
def State.closedForme (s : State) (f : Nat) : State :=
  let t := ((s.freeContexts f).setForme f Forme.init).recompute f
  let keys := ((s.hellbox.filter (fun e => e.kind == 1)).map (fun e => e.field * 64 + e.col)).eraseDups
  if keys.any (fun k => s.columnNow k != t.columnNow k) then { t with mapGen := t.mapGen + 1 } else t

/-- Whether a station still has an accumulate of a forme to apply (R282 step 3). -/
def Station.busyFor (x : Station) (f : Nat) : Bool := x.heldContribs.any (fun c => c.forme == f)

/-- Whether a port still waits for a cancel of a forme to be acknowledged (R282 step 2). -/
def FPort.busyFor (p : FPort) (f : Nat) : Bool :=
  decide (p.bound.map (·.forme) = some f) && !p.cancels.isEmpty && decide (3 ≤ p.link)

/-- A forme as RESET_FORME leaves it: OPEN, with its windows, its stereo entries (R279) and what its last RUN ended with (R441,
log 39, DEDUCED). -/
def Forme.reopened (x : Forme) : Forme :=
  { Forme.init with
    state := 1, resets := x.resets, status := x.status, faultClass := x.faultClass, faultCore := x.faultCore, faultCode := x.faultCode, mapGen := x.mapGen, viewHb := x.viewHb, viewFields := x.viewFields, cx0 := x.cx0,
    cy0 := x.cy0, cx1 := x.cx1, cy1 := x.cy1, clockStep := x.clockStep, near := x.near, host := x.host, stereo := x.stereo }

/-- The last step of draining, and the command that asked for it completes. -/
def State.drained (s : State) (f : Nat) : State :=
  let x := s.forme f
  let s := s.forAll x.coreList (fun s c => s.updRouter c (·.drain f))
  let s := s.forAll (s.formeCores f) (fun s c => (s.updCore c (·.afterReset)).dropAssemblies (fun a => a.core == c))
  let s := if x.closing then
      let s := s.forAll x.clusters (fun s k => s.updCluster k (fun y => { y with forme := none, formeStep := 33 }))
      let s := s.forAll (List.range 16) (fun s p => s.updFport p (fun y =>
        if y.bound.map (·.forme) = some f then { y with bound := none } else y))
      s.closedForme f
    else s.setForme f x.reopened
  let s := s.updRing f (fun g => { g with partials := [] })
  let op := if x.closing then 0x0004 else 0x0005
  let l := s.rings.flatMap (fun e => (e.2.cmds.filter (fun c => c.opcode == op && bytesAt c.entry 16 1 == f)).map (fun c => (e.1, c)))
  (s.forAll l (fun s e => s.finish e.1 e.2 Compl.done)).settleEnded

/-- FORME_DRAIN_DONE: once the stations have served the forme's writes and every cancel is acknowledged. -/
def execFormeDrainDone (f : Nat) (s : State) : Out :=
  .next (if (s.forme f).state = 6 ∧ ¬ s.stations.any (fun e => e.2.busyFor f) ∧ ¬ s.fports.any (fun e => e.2.busyFor f)
    then s.drained f else s)

end Sys2Proof.Machine
end

