-- ==== Sys2Proof/Machine/Router.lean ====
section
/-! DEFINITION. Routers: what a received header meets, multicast, in-flight reduction, and the outputs (R237-R268). -/

namespace Sys2Proof.Machine

/-! ### Router tables (R251, R260, R263) -/

/-- A multicast entry in use: forward is kind 0, inject kind 1. -/
def mcValid (e : BitVec 64) : Bool := e.getLsbD 63
def mcPort (e : BitVec 64) : Nat := bits e.toNat 27 24
def mcInject (e : BitVec 64) : Bool := e.getLsbD 23
def mcCls (e : BitVec 64) : Nat := bits e.toNat 22 21
def mcGalley (e : BitVec 64) : Nat := bits e.toNat 20 17
def mcOuts (e : BitVec 64) : Nat := bits e.toNat 16 12
def mcGroup (e : BitVec 64) : Nat := bits e.toNat 11 0

/-- The forward entry of a group. -/
def Router.forwardEntry (r : Router) (g : Nat) : Option (BitVec 64) :=
  r.mcast.find? (fun e => mcValid e && !mcInject e && mcGroup e == g)

/-- The inject entry of a send port. -/
def Router.injectEntry (r : Router) (p : Nat) : Option (BitVec 64) :=
  r.mcast.find? (fun e => mcValid e && mcInject e && mcPort e == p)

/-- The fields of a reduce entry. -/
def reBf16 (e : BitVec 64) : Bool := e.getLsbD 43
def reIns (e : BitVec 64) : Nat := bits e.toNat 42 38
def reMatches (e : BitVec 64) (m : Msg) : Bool :=
  e.getLsbD 63 && decide (m.typ = MT.data ∧ m.vc = 0 ∧ m.dkind = 0 ∧ bits e.toNat 15 0 = m.tag
    ∧ coreAt (bits e.toNat 24 16) (bits e.toNat 33 25) = m.dest ∧ bits e.toNat 37 34 = m.galley)

/-- The reduce entry that a message matches, by its number. -/
def Router.reduceEntry (r : Router) (m : Msg) : Option Nat :=
  (List.range r.reduce.length).find? (fun i => match r.reduce[i]? with
    | some e => reMatches e m
    | none => false)

/-! ### Sums in flight (R222, R266, R326) -/

/-- One element added under an add format: 0 FP32, 1 BF16, else INT32 with wrap (R222, R266, R326). -/
def addElem (fmt a b : Nat) : Nat :=
  if fmt = 0 ∨ fmt = 1 then (encodeNum fmt ((decodeNum fmt a).add (decodeNum fmt b)).1 Rnd.rne).1
  else (a + b) % 2 ^ 32

/-- Width of an add format's elements. -/
def addWidth (fmt : Nat) : Nat := if fmt = 1 then 16 else 32

/-- The state of a sum's codeword: fresh check bits, poisoned when either operand's is poisoned or uncorrectable. -/
def Cw.sum (a b : Cw) : Cw := Cw.ofPoison (a.read == .poison || b.read == .poison)

/-- Two slots added (R222, R266, R326). -/
def Slot.add (fmt : Nat) (x y : Slot) : Slot :=
  let w := addWidth fmt
  { data := BitVec.ofNat 256 (packBits w ((List.range (256 / w)).map (fun i =>
      addElem fmt (elemBits w x.data.toNat i) (elemBits w y.data.toNat i))))
    lo := Cw.sum x.lo y.lo, hi := Cw.sum x.hi y.hi }

/-- The codewords of slots. -/
def codewords (l : List Slot) : List Cw := l.flatMap (fun x => [x.lo, x.hi])

/-! ### Link detections (R246-R248) -/

/-- The unit field of a link: its core and direction (R532). -/
def linkUnit (c i : Nat) : Nat := c + i * 2 ^ 18

/-- What a router can detect on a link (R246, R247). -/
inductive Detection where
  | corr
  | uncorr
  | parity
deriving DecidableEq, Repr

/-- One detection on an input link: its counters, the window's first event and the score's limit (R246-R248). -/
def State.linkDetect (s : State) (c i : Nat) (d : Detection) : State :=
  if 4 ≤ i then s
  else
    let r := s.router c
    let n (k : Detection) : Nat := b2n (d == k)
    let first := decide (Map.get 0 r.winCorr i = 0 ∧ Map.get 0 r.winUncorr i = 0)
    let ignored := r.scoreIgnored.testBit i
    let score := Map.get 0 r.score i + (if ignored then 0 else if d = .corr then 1 else 64)
    let worn := decide (4096 ≤ score) && !ignored
    let r := { r with
      corr := r.corr.bump i (n .corr) 32, uncorr := r.uncorr.bump i (n .uncorr) 16, hpar := r.hpar.bump i (n .parity) 8
      winCorr := Map.upd 0 r.winCorr i (· + n .corr), winUncorr := Map.upd 0 r.winUncorr i (· + (n .uncorr + n .parity))
      score := Map.set 0 r.score i score, scoreIgnored := if worn then setBit r.scoreIgnored i else r.scoreIgnored }
    let s := s.setRouter c r
    let note (s : State) : State := s.post { RecSpec.event Config.clsLinkDetect 7 (linkUnit c i)
        (le score 4 ++ le (Map.get 0 r.winCorr i) 4 ++ le (Map.get 0 r.winUncorr i) 4) with forme := s.formeOf c }
    let s := if first || worn then note s else s
    if worn then s.appendHb (s.deadLink c i 5) (s.formeOf c) 7 (linkUnit c i) else s

/-- What a router detects in a payload's codewords: no poison (R246). -/
def payloadDetections (l : List Cw) : List Detection :=
  l.filterMap (fun w => if w = .correctable then some .corr else if w = .uncorrectable then some .uncorr else none)

/-- A header parity error: the message is gone, and the forme of the router's cluster faults with LINK_DETECT, or the
device resets (R247).  The unit of a header that came in at the local input or the merge buffer is coded as a link of direction 4 or 5
(log 94, DESIGN CHOICE). -/
def State.headerFault (s : State) (c i : Nat) : State :=
  let f := s.formeOf c
  if s.resetsFor f then s.noteUncorrected f 7 (linkUnit c i) 7 0 0
  else match f with
    | none => s
    | some n =>
      let r := s.router c
      s.faultForme n {
        status := Config.faultCode, cls := Config.clsLinkDetect, core := none, code := 0, action := 0, unitKind := 7,
        unit := linkUnit c i, census := none
        detail := le (Map.get 0 r.score i) 4 ++ le (Map.get 0 r.winCorr i) 4 ++ le (Map.get 0 r.winUncorr i) 4 }

/-! ### Routing (R245, R249, R255, R258, R259) -/

/-- A reserved type, len, dkind or dest, or more payload on VC1 than its type has (R245). -/
def Msg.reserved (m : Msg) : Bool :=
  decide (m.typ = 0 ∨ 0x0E ≤ m.typ ∨ 8 < m.len ∨ 3 < m.dkind)
    || decide (m.dkind = 2 ∧ 448 ≤ m.dest) || decide (m.dkind = 3 ∧ 18 ≤ m.dest)
    || (decide (m.vc = 1) && decide ((if m.typ = MT.group ∨ m.typ = MT.portOp ∨ m.typ = MT.portRsp then 0 else 1) < m.len))

/-- Whether a message at an input of a router enters the router's cluster (R255). -/
def State.entersCluster (s : State) (c i : Nat) : Bool :=
  decide (i < 4) && (match s.neighbour c i with
    | some n => clusterOf n != clusterOf c
    | none => true)

/-- The core that a message makes for: its waypoint, its core, or its exit core (R249, R258, R259). -/
def State.target (s : State) (m : Msg) : Option Nat :=
  match m.wp with
  | some (x, y) => some (coreAt x y)
  | none =>
    if m.dkind = 0 then some m.dest
    else if m.dkind = 3 ∧ m.dest < 16 then some (portExit m.dest m.src)
    else s.gateOf m.forme m.src

/-- Whether the unit that an edge message names is present. -/
def State.unitPresent (s : State) (m : Msg) : Bool :=
  if m.dkind = 2 then s.stationPresent m.dest
  else if m.dest < 16 then s.portPresent m.dest
  else s.bayPresent (m.dest - 16)

/-- What routing decides: the message goes on to outputs, or is absorbed and counted. -/
inductive Way where
  | outs (m : Msg) (mask : Nat) (detoured : Bool)
  | absorb (m : Msg)

/-- The way of a message that a router passes on: its direction, or a detour around a blocked one (R249, R250). -/
def State.onward (s : State) (c : Nat) (m : Msg) (t : Nat) : Way :=
  let d := xyDirection t c
  if s.blockedDir m.forme c d then
    match (s.router c).detour.find? (fun e => detourFits e d t) with
    | none => .absorb m
    | some e => .outs { m with wp := some (detourPoint e) } (2 ^ xyDirection (coreAt (detourPoint e).1 (detourPoint e).2) c) true
  else .outs m (2 ^ d) false

/-- The way of a message that has reached its target: the local port, or the attachment beyond it (R253, R254). -/
def State.ejectWay (s : State) (m : Msg) : Way :=
  if m.dkind = 0 then .outs m 16 false
  else if s.unitPresent m then .outs m 32 false
  else .absorb m

/-- Removes the head of an input queue; what stands outside comes in (R237). -/
def Router.popIn (r : Router) (k : Nat) : Router := { r with inq := Map.upd [] r.inq k (fun q => q.drop 1) }.refill k

/-- Replaces the head of an input queue. -/
def Router.setIn (r : Router) (k : Nat) (b : RBuf) : Router := { r with inq := Map.upd [] r.inq k (fun q => b :: q.drop 1) }

/-- Carries a way out at the head of an input queue. -/
def State.takeWay (s : State) (c k : Nat) (w : Way) : State :=
  match w with
  | .outs m mask detoured =>
    if mask = 0 then s.updRouter c (·.popIn k)
    else s.updRouter c (fun r =>
      { r.setIn k { msg := m, routed := true, outs := mask } with
        detoured := satAdd r.detoured (b2n detoured) 32 })
  | .absorb m => (s.updRouter c (·.popIn k)).absorb c m

/-! ### Multicast (R261, R262) -/

/-- A GROUP message: the outputs of its forward entry; a blocked direction and a local copy for a galley that is not plain
are absorbed. -/
def State.replicate (s : State) (c k : Nat) (m : Msg) : State :=
  match (s.router c).forwardEntry m.dest with
  | none => s.updRouter c (fun r => { r.popIn k with groupMiss := satAdd r.groupMiss 1 32 })
  | some e =>
    let want := maskList (mcOuts e) 5
    let good := want.filter (fun d =>
      if d = 4 then ((s.core c).galley (mcGalley e)).mode == 1 else !s.blockedDir m.forme c d)
    (s.takeWay c k (.outs m (good.foldl setBit 0) false)).updRouter c (fun r =>
      { r with absorbed := satAdd r.absorbed (want.length - good.length) 32 })

/-- What the head of a queue becomes when it leaves by the local output: a GROUP message takes the entry's galley and
class, and its header still names the port's class (R261, R262). -/
def State.localCopy (s : State) (c : Nat) (m : Msg) : Msg :=
  if m.typ = MT.group then
    match (s.router c).forwardEntry m.dest with
    | some e => { m with galley := mcGalley e, cls := mcCls e, hdr := some m.cls }
    | none => m
  else m

/-! ### In-flight reduction (R263-R266) -/

/-- Reports what correcting the codewords of a merge operand finds (R266). -/
def State.mergeOperand (s : State) (c i : Nat) (l : List Slot) : State :=
  let kind := if i < 4 then 7 else 1
  let unit := if i < 4 then linkUnit c i else c
  s.forAll (codewords l) (fun s w =>
    if w = .correctable then s.noteCorrected kind unit 7 0
    else if w = .uncorrectable then s.noteUncorrected (s.formeOf c) kind unit 7 0 2
    else s)

/-- The lowest set bit of a mask of inputs. -/
def firstInput (mask : Nat) : Nat := (maskList mask 5).headD 4

/-- A message of a reduce entry: added into the held one, held, or passed on (R264-R266). -/
def State.merge (s : State) (c i k e : Nat) (m : Msg) (t : Nat) : State :=
  let r := s.router c
  let fmt := match r.reduce[e]? with
    | some w => if reBf16 w then 1 else 0
    | none => 0
  let room := decide (r.held.length + (Map.get [] r.inq 10).length < 2)
  match r.held.find? (fun h => h.entry == e) with
  | some h =>
    if h.msg.len = m.len then
      let sum := { h.msg with
        slots := List.zipWith (Slot.add fmt) h.msg.slots m.slots, count := min 4095 (h.msg.count + m.count) }
      let s := (s.mergeOperand c (firstInput h.arrived) h.msg.slots).mergeOperand c i m.slots
      let s := s.updRouter c (fun r =>
        { r.popIn k with
          merged := satAdd r.merged 1 32
          held := r.held.map (fun g => if g.entry = e then { g with msg := sum, arrived := setBit g.arrived i } else g) })
      if m.fromCore then s.arrive c 4 (creditMsgTo m.forme c m.src m.sport m.len) else s
    else (s.updRouter c (fun r => { r with bypass := satAdd r.bypass 1 32 })).takeWay c k (s.onward c m t)
  | none =>
    if room then
      s.updRouter c (fun r =>
        { r.popIn k with held := r.held ++ [({ entry := e, msg := m, arrived := 2 ^ i } : Held)] })
    else (s.updRouter c (fun r => { r with bypass := satAdd r.bypass 1 32 })).takeWay c k (s.onward c m t)

/-! ### A received message (R245-R249, R255) -/

/-- The routing procedure of R249. -/
def State.routeMsg (s : State) (c i k : Nat) (m : Msg) : State :=
  let m := { m with hops := m.hops + 1 }
  if 1023 ≤ m.hops then s.updRouter c (fun r => { r.popIn k with hopDrop := satAdd r.hopDrop 1 16 })
  else
    let m := if m.wp = some (coreX c, coreY c) then { m with wp := none } else m
    let m := match (s.router c).injectEntry m.sport with
      | some e => if i = 4 ∧ m.typ = MT.data ∧ m.sx = coreX c ∧ m.sy = coreY c then
          { m with typ := MT.group, dkind := 1, dest := mcGroup e } else m
      | none => m
    if m.typ = MT.group then s.replicate c k m
    else
      match s.target m with
      | none => s.takeWay c k (.absorb m)
      | some t =>
        if t = c then s.takeWay c k (s.ejectWay m)
        else match (s.router c).reduceEntry m with
          | some e => s.merge c i k e m t
          | none => s.takeWay c k (s.onward c m t)

/-- The codewords that a step upsets on a link. -/
def Msg.flip (m : Msg) (l : List (Nat × Bool × Bool)) : Msg :=
  l.foldl (fun m e => match m.slots[e.1]? with
    | some x => { m with slots := m.slots.set e.1 (x.upset e.2.1 e.2.2) }
    | none => m) m

/-- ROUTE: the router at core `c` handles the head of input `i` on virtual channel `v` (R245-R249, R255). -/
def execRoute (c i v : Nat) (o : LinkObs) (s : State) : Out :=
  let k := i * 2 + v
  .next (match s.routes c, Map.get [] (s.router c).inq k with
    | true, b :: _ =>
      if b.routed then s
      else if o.parity then s.controlParity (s.formeOf c) 1 c
      else
        let m := if i < 4 then b.msg.flip o.flips else b.msg
        let bad := o.headerParity
        let s := s.forAll ((if bad then [Detection.parity] else []) ++ payloadDetections (codewords m.slots)) (fun s d => s.linkDetect c i d)
        let drop (f : Router → Router) : State := s.updRouter c (fun r => f (r.popIn k))
        if bad then (drop id).headerFault c i
        else if s.entersCluster c i ∧ s.formeOf c ≠ some m.forme then
          drop (fun r => { r with chaseDrop := satAdd r.chaseDrop 1 32 })
        else if m.reserved then drop (fun r => { r with typeDrop := satAdd r.typeDrop 1 16 })
        else s.routeMsg c i k m
    | _, _ => s)

/-! ### Outputs (R237, R239, R240) -/

/-- The inputs whose head wants an output, in rotation. -/
def Router.wanting (r : Router) (d v : Nat) : List Nat :=
  let start := Map.get 0 r.rot (d * 2 + v)
  ((List.range 6).map (fun j => (start + j) % 6)).filter (fun i => match Map.get [] r.inq (i * 2 + v) with
    | b :: _ => b.routed && b.outs.testBit d
    | [] => false)

/-- The host's requests that wait outside come into a station's VC1 queue as far as it has room (R309, R319). -/
def Station.takeOutside (m : Station) : Station :=
  let k := 8 - m.q1.length
  { m with q1 := m.q1 ++ m.outside.take k, outside := m.outside.drop k }

/-- Whether a message is a REPORT (R447). -/
def Msg.isReport (m : Msg) : Bool := m.typ == MT.hostOp && decide (dOp m.desc = 3)

/-- Whether an assembly is a message's. -/
def Assembly.isFor (a : Assembly) (m : Msg) : Bool := decide (a.core = m.src ∧ a.port = m.sport)

/-- Whether a REPORT would open one assembly too many in a bay (R450). -/
def Bay.full (x : Bay) (m : Msg) : Bool := decide (256 ≤ x.asms.length) && !x.asms.any (·.isFor m)

/-- Whether the report ring's space is too short for the record that has closed first (R451). -/
def State.reportsShort (s : State) : Bool :=
  match s.reports with
  | [] => false
  | p :: _ => decide ((s.ring 73).state = 1) && ((s.ring 73).furniture (1 + p.slots.length)).isNone

/-- Whether a unit takes a message: a station's queues hold 32 and 8 (R309, R329), and a bay takes no REPORT while the report ring is short of
space, and no VC0 request while a VC0 REPORT waits for an assembly (R450, R451).  Ports and bays have no other limit (log 101, DESIGN CHOICE). -/
def State.unitRoom (s : State) (v : Nat) (m : Msg) : Bool :=
  if m.dkind = 2 then
    if v = 0 then decide ((s.station m.dest).q0.length < 32) else decide ((s.station m.dest).q1.length < 8)
  else if m.dest < 16 then true
  else
    let x := s.bay (m.dest - 16)
    !(m.isReport && s.reportsShort) && !(decide (v = 0) && x.ops.any (fun r => decide (r.vc = 0) && r.isReport && x.full r))

/-- Whether an output has credit for a message: room in the neighbour's input buffer (R237), a free local port, or a unit that takes it. -/
def State.outputRoom (s : State) (c d v : Nat) (m : Msg) : Bool :=
  if d = 4 then (Map.get [] (s.router c).ejq v).isEmpty
  else if d = 5 then s.unitRoom v m
  else match s.neighbour c d with
    | none => false
    | some n =>
      decide ((s.router n).flitsAt (opposite d * 2 + v) + m.flits ≤ inputFlits v)

/-- The input that an output would serve. -/
def State.outputPick (s : State) (c d v : Nat) : Option (Nat × RBuf) :=
  match ((s.router c).wanting d v).head? with
  | none => none
  | some i => match Map.get [] (s.router c).inq (i * 2 + v) with
    | b :: _ => some (i, b)
    | [] => none

/-- A CLOSE from a core's port that reaches a host bay: the assembly of that port is discarded (R450). -/
def Bay.closed (x : Bay) (m : Msg) : Bay :=
  { x with asms := x.asms.filter (fun a => !decide (a.core = coreAt m.sx m.sy ∧ a.port = ofLe ((m.slots.headD zeroSlot).bytes.take 1) % 16)) }

/-- A message that leaves the fabric at an attachment: requests and CONNECTs wait at the unit; the units keep no channel
place, so other connection messages end there (R230, R322, R368, R446). -/
def State.toUnit (s : State) (m : Msg) : State :=
  if m.typ = MT.close ∧ m.dkind = 3 ∧ 16 ≤ m.dest then s.updBay (m.dest - 16) (fun x => x.closed m)
  else if m.typ ≠ MT.connect ∧ m.typ ≠ MT.stationOp ∧ m.typ ≠ MT.portOp ∧ m.typ ≠ MT.hostOp then s
  else if m.dkind = 2 then
    s.updStation m.dest (fun x => if m.vc = 0 then { x with q0 := x.q0 ++ [m] } else { x with q1 := x.q1 ++ [m] })
  else if m.dest < 16 then s.updFport m.dest (fun x => { x with ops := x.ops ++ [m] })
  else s.updBay (m.dest - 16) (fun x => { x with ops := x.ops ++ [m] })

/-- Takes one output's copy away from the head of an input. -/
def Router.sentCopy (r : Router) (i d v : Nat) (b : RBuf) : Router :=
  let k := i * 2 + v
  let outs := clearBit b.outs d
  let r := { r with rot := Map.set 0 r.rot (d * 2 + v) ((i + 1) % 6) }
  if outs = 0 then r.popIn k else r.setIn k { b with outs := outs }

/-- Whether an output can send on a virtual channel now. -/
def State.canSend (s : State) (c d v : Nat) : Bool :=
  match s.outputPick c d v with
  | some (_, b) => s.outputRoom c d v b.msg
  | none => false

/-- Whether a direction can take no message any more (R253, R269). -/
def State.cutOff (s : State) (f c d : Nat) : Bool := decide (d < 4) && s.blockedDir f c d

/-- ROUTER_FORWARD: output `d` of a router (0 N, 1 E, 2 S, 3 W, 4 local, 5 attachment) sends a whole message on virtual
channel `v`; VC1 goes first (R239, R240). -/
def execRouterForward (c d v : Nat) (s : State) : Out :=
  .next (match s.routes c, s.outputPick c d v with
    | true, some (i, b) =>
      let cleared := s.updRouter c (fun r => r.sentCopy i d v b)
      if s.cutOff b.msg.forme c d then cleared.absorb c b.msg
      else if ¬ s.outputRoom c d v b.msg ∨ (v = 0 ∧ s.canSend c d 1) then s
      else if d = 4 then
        cleared.updRouter c (fun r => { r with ejq := Map.upd [] r.ejq v (fun q => q ++ [s.localCopy c b.msg]) })
      else if d = 5 then cleared.toUnit b.msg
      else match s.neighbour c d with
        | some n => cleared.arrive n (opposite d) b.msg
        | none => s
    | _, _ => s)

/-- LINK_SCORE_WINDOW_END: every score of the router starts again (R248). -/
def execLinkScoreWindowEnd (c : Nat) (s : State) : Out :=
  .next (s.updRouter c (fun r => { r with score := [], winCorr := [], winUncorr := [] }))

/-- REDUCE_FORWARD: the message held for reduce entry `i` is forwarded once every input has arrived or its timer expires
(R264). -/
def execReduceForward (c i : Nat) (expired : Bool) (s : State) : Out :=
  let r := s.router c
  .next (match s.routes c, r.held.find? (fun h => h.entry == i) with
    | true, some h =>
      let ins := match r.reduce[i]? with
        | some e => reIns e
        | none => 0
      if expired ∨ h.arrived &&& ins = ins then
        let s := s.updRouter c (fun r => { r with held := r.held.filter (fun g => g.entry != i) })
        match (s.target h.msg).map (s.onward c h.msg) with
        | some (.outs m mask detoured) => s.updRouter c (fun r => { r with
            inq := Map.upd [] r.inq 10 (fun q => q ++ [{ msg := m, routed := true, outs := mask }])
            detoured := satAdd r.detoured (b2n detoured) 32 })
        | _ => s.absorb c h.msg
      else s
    | _, _ => s)

end Sys2Proof.Machine
end

