-- ==== Sys2Proof/Machine/Delivery.lean ====
section
/-! DEFINITION. What a core does with a message that leaves by its local port: galleys, combining galleys, spill
extensions and connection messages (R200-R231, R254, R322, R368, R446, R505). -/

namespace Sys2Proof.Machine

/-! ### Complete items (R211, R212, R220-R224) -/

/-- A message becomes a complete item of its class, and the wake wire asserts (R67, R212). -/
def Core.complete (x : Core) (n : Nat) (m : Msg) : Core :=
  (x.updGalley n (fun g =>
    { g with items := g.items ++ [({ msg := m, pos := g.place m.cls } : Item)], wp := g.advance g.wp m.cls m.slots.length })).wake

/-- A contribution stands in a combining galley until it is added (R220, R224). -/
def Galley.contribute (g : Galley) (m : Msg) : Galley :=
  { g with contribs := g.contribs ++ [({ msg := { m with cls := 0 }, pos := g.place 0 } : Item)],
           wp := g.advance g.wp 0 m.slots.length }

/-- A message enters a galley's spill extension: its slots are written into the core store, the list keeps their number (R227). -/
def Core.spillIn (x : Core) (n : Nat) (m : Msg) : Core :=
  let g := x.galley n
  let pos := g.spillPos
  let put (y : Core) (k : Nat) : Core :=
    let sl := m.slots.getD k zeroSlot
    (y.putCw (g.spillCw (pos + k)) (sl.data.toNat % 2 ^ 128, sl.lo)).putCw (g.spillCw (pos + k) + 1) (sl.data.toNat / 2 ^ 128, sl.hi)
  ((List.range m.slots.length).foldl put x).updGalley n (fun g =>
    { g with ext := g.ext ++ [({ msg := { m with slots := List.replicate m.slots.length zeroSlot }, pos := pos } : Item)] })

/-- Adds to one of a core's galley counters: 2 is CS_GS_n, 3 is CS_GX_n (R559). -/
def Core.countSpill (x : Core) (n : Nat) : Core := { x with sc := x.sc.bump (0x242 + 4 * n) 1 32 }
def Core.countAbsorbed (x : Core) (n : Nat) : Core :=
  { x with sc := Map.upd 0 x.sc (0x243 + 4 * n) (fun v => v / 65536 * 65536 + satAdd (v % 65536) 1 16) }
def Core.countOver (x : Core) (n : Nat) : Core :=
  { x with sc := Map.upd 0 x.sc (0x243 + 4 * n) (fun v => satAdd (v / 65536) 1 16 * 65536 + v % 65536) }

/-- What a message at its galley meets. -/
inductive Write where
  | absorb | wait | item | spill | contribution | wrongSize
deriving DecidableEq, Repr

/-- Whether the galley refuses a message for good: unused, of another mode or class, or on a channel that the reader has
closed (R229, R261, R505). -/
def Galley.turnsAway (g : Galley) (m : Msg) : Bool :=
  decide (g.mode = 0 ∨ m.slots = []) || decide (m.typ = MT.group ∧ g.mode ≠ 1) || decide (g.mode = 1 ∧ g.classes ≤ m.cls)
    || (decide (m.typ = MT.data) && m.fromCore && (g.chan m).isNone && g.shut.contains (m.src, m.sport, m.chanCls))

/-- What a message meets at its galley (R212, R220, R223, R227). -/
def Galley.write (g : Galley) (m : Msg) : Write :=
  let n := m.slots.length
  if g.turnsAway m then .absorb
  else if g.mode = 2 then
    if n ≠ g.isize then .wrongSize
    else if n ≤ g.freeSlots 0 then .contribution else .wait
  else if g.hasSpill ∧ (¬ g.ext.isEmpty ∨ g.freeSlots 0 < n) then
    if g.occ + n ≤ g.spillSize then .spill else .wait
  else if n ≤ g.freeSlots m.cls then .item else .wait

/-- Whether a type is written into a galley (R244). -/
def galleyType (t : Nat) : Bool :=
  t == MT.data || t == MT.group || t == MT.stationRsp || t == MT.portRsp || t == MT.hostRsp

/-- Whether a type is a connection message (R209). -/
def connType (t : Nat) : Bool := decide (MT.connect ≤ t ∧ t ≤ MT.credit)

/-- Removes the message that waits at a core's local port. -/
def State.popEj (s : State) (c v : Nat) : State :=
  s.updRouter c (fun r => { r with ejq := Map.upd [] r.ejq v (fun q => q.drop 1) })

/-- The message that waits at a core's local port. -/
def State.ejHead (s : State) (c v : Nat) : Option Msg := (Map.get [] (s.router c).ejq v).head?

/-- Counts a message that a core's router absorbs without notice (R209, R229, R505). -/
def State.countAbsorbed (s : State) (c : Nat) : State :=
  s.updRouter c (fun r => { r with absorbed := satAdd r.absorbed 1 32 })

/-- A contribution of a wrong length is absorbed, and its slots return as credit (R223). -/
def State.dropContribution (s : State) (c : Nat) (m : Msg) : State :=
  let s := s.updCore c (·.countAbsorbed m.galley)
  if m.fromCore then s.arrive c 4 (creditMsgTo m.forme c m.src m.sport m.slots.length) else s

/-- GALLEY_WRITE: the message at the local port is written into its galley once its slots are free (R212). -/
def execGalleyWrite (c v : Nat) (s : State) : Out :=
  .next (match s.routes c, s.ejHead c v with
    | true, some m =>
      if connType m.typ then s
      else if galleyType m.typ = false ∨ (s.core c).st = .empty then (s.popEj c v).countAbsorbed c
      else match ((s.core c).galley m.galley).write m with
        | .absorb => (s.popEj c v).countAbsorbed c
        | .wait => s
        | .item => (s.popEj c v).updCore c (·.complete m.galley m)
        | .spill => (s.popEj c v).updCore c (fun x => (x.spillIn m.galley m).countSpill m.galley)
        | .contribution => (s.popEj c v).updCore c (fun x => x.updGalley m.galley (·.contribute m))
        | .wrongSize => (s.popEj c v).dropContribution c m
    | _, _ => s)

/-! ### Combining galleys (R219-R224) -/

/-- Reads the slots that an addition takes from queue memory: a correctable codeword is corrected, an uncorrectable one becomes poisoned,
and poison read sets PSN (R78, R103, R222). -/
def Cx.readContribution (x : Cx) (g : Galley) (i : Item) : List Slot × Cx :=
  let l := i.msg.slots.map (fun y => { y with lo := y.lo.read, hi := y.hi.read })
  let y := (List.zip (List.range i.msg.slots.length) i.msg.slots).foldl (fun (y : Cx) e =>
    (y.noteCw e.2.lo 2 (g.slotOf i e.1 * 2)).noteCw e.2.hi 2 (g.slotOf i e.1 * 2 + 1)) x
  (l, y.foundPoison (anyPoison l))

/-- An entry that has reached its total goes to the read side, where it stands; one that passes it is an overcount (R221, R223). -/
def Core.releaseEntry (x : Core) (n : Nat) (e : Entry) : Core :=
  let expect := (x.galley n).expect
  if e.total < expect then x.updGalley n (fun g => { g with entries := g.entries.filter (fun f => f.key != e.key) ++ [e] })
  else
    let x := if expect < e.total then x.countOver n else x
    let i := e.item e.slots
    (x.updGalley n (fun g => { g with
      entries := g.entries.filter (fun f => f.key != e.key)
      items := g.items ++ [{ i with msg := { i.msg with count := min 4095 e.total } }] })).wake

/-- The next contribution of a combining galley is added; the slots of one that matches an entry are free at once (R220-R224). -/
def Cx.combine (x : Cx) (n : Nat) (i : Item) : Cx :=
  let g := x.core.galley n
  let m := i.msg
  let r := x.readContribution g i
  let y := r.2.mapCore (fun c => c.updGalley n (fun g => { g with contribs := g.contribs.drop 1 }))
  match g.entries.find? (fun e => e.key == m.tag) with
  | none => y.mapCore (fun c => c.releaseEntry n { key := m.tag, total := m.count, slots := r.1, pos := i.pos, owner := m })
  | some e =>
    let r2 := y.readContribution g (e.item e.slots)
    let e := { e with total := e.total + m.count, slots := List.zipWith (Slot.add g.addFmt) r2.1 r.1 }
    let y := r2.2.mapCore (fun c => (c.updGalley n (fun g => { g with rp := g.advance g.rp 0 m.slots.length })).releaseEntry n e)
    match m.fromCore with
    | true => { y with msgs := y.msgs ++ [creditMsgTo x.core.forme x.me m.src m.sport m.slots.length] }
    | false => y

/-- COMBINING_ADD. -/
def execCombiningAdd (c g : Nat) (o : Obs) (s : State) : Out :=
  .next (match s.routes c, ((s.core c).galley g).contribs with
    | true, m :: _ =>
      let x := Cx.start c ((s.core c).upsets o) s.free
      s.settleCore c x.core.pc (x.combine g m)
    | _, _ => s)

/-! ### Spill extensions (R225-R228) -/

/-- Whether a galley may grant spill credit of `n` slots to its channel (R226). -/
def Core.spillGrantDue (x : Core) (g n : Nat) : Bool :=
  let gal := x.galley g
  gal.hasSpill && decide (x.st ≠ .quoin ∧ gal.freeSlots 0 < n ∧ gal.debt + n ≤ gal.spillSize)
    && (List.range 64).any (fun k =>
      let b := x.blockAt k
      x.enabled k && b.inputs.testBit g && (x.shortPorts b).isEmpty
        && !(x.emptyInputs b).isEmpty && !(x.emptyInputs b).contains g)

/-- SPILL_CREDIT_GRANT (R226). -/
def execSpillCreditGrant (c g : Nat) (s : State) : Out :=
  .next (match s.executing c, ((s.core c).galley g).chans with
    | true, ch :: _ =>
      if (s.core c).spillGrantDue g ch.size then
        (s.updCore c (fun x => x.updGalley g (fun y => { y with debt := y.debt + ch.size }))).arrive c 4
          (creditMsgTo (s.core c).forme c ch.src ch.port ch.size)
      else s
    | _, _ => s)

/-- Reads the slots of an item of a spill extension from the core store (R78, R227). -/
def Cx.readSpill (x : Cx) (g : Galley) (pos : Nat) : Nat → List Slot × Cx
  | 0 => ([], x)
  | n + 1 =>
    let a := x.readOrdered (g.spillCw pos)
    let b := a.2.2.readOrdered (g.spillCw pos + 1)
    let t := b.2.2.readSpill g (pos + 1) n
    ({ data := BitVec.ofNat 256 (a.1 + 2 ^ 128 * b.1), lo := Cw.ofPoison a.2.1, hi := Cw.ofPoison b.2.1 } :: t.1, t.2)

/-- SPILL_REFILL: the oldest item of the extension moves into the class buffer when it has room; it is read from the core store
(R78, R227). -/
def execSpillRefill (c g : Nat) (s : State) : Out :=
  .next (match s.routes c, ((s.core c).galley g).ext with
    | true, i :: _ =>
      if i.msg.slots.length ≤ ((s.core c).galley g).freeSlots i.msg.cls then
        let x := Cx.start c (s.core c) s.free
        let r := x.readSpill ((s.core c).galley g) i.pos i.msg.slots.length
        s.settleCore c x.core.pc (r.2.mapCore (fun y =>
          (y.updGalley g (fun z => { z with ext := z.ext.drop 1 })).complete g { i.msg with slots := r.1 }))
      else s
    | _, _ => s)

/-! ### Connection messages (R200-R209, R229-R231) -/

/-- The payload bytes of a connection message. -/
def Msg.body (m : Msg) : Bytes := (m.slots.headD zeroSlot).bytes

/-- Whether the reserved bits of a connection message are zero (R209). -/
def Msg.connOk (m : Msg) : Bool :=
  let b := m.body
  if m.typ = MT.connect then decide (bytesAt b 0 4 < 2 ^ 22 ∧ bytesAt b 9 1 < 8) && zeroAt b 10 22
  else if m.typ = MT.accept ∨ m.typ = MT.credit then decide (bytesAt b 0 1 < 16) && zeroAt b 1 1 && zeroAt b 4 28
  else if m.typ = MT.refuse then decide (bytesAt b 0 1 < 16 ∧ bytesAt b 1 1 < 8) && zeroAt b 2 30
  else decide (bytesAt b 0 1 < 32) && zeroAt b 1 31

/-- Acts on the connection message of a type that waits at a core's local port; one with reserved bits set is ignored and
counted (R209). -/
def State.takeConn (s : State) (c typ : Nat) (act : Msg → State → State) : State :=
  match s.routes c, s.ejHead c 1 with
  | true, some m =>
    if m.typ ≠ typ then s
    else
      let s := s.popEj c 1
      if m.connOk then act m s else s.countAbsorbed c
  | _, _ => s

/-- The fields of a CONNECT's payload. -/
def Msg.cnSource (m : Msg) : Nat := bytesAt m.body 0 4 % 2 ^ 18
def Msg.cnPort (m : Msg) : Nat := bits (bytesAt m.body 0 4) 21 18
def Msg.cnRank (m : Msg) : Nat := bytesAt m.body 4 2
def Msg.cnKey (m : Msg) : Nat := bytesAt m.body 6 2
def Msg.cnGalley (m : Msg) : Nat := bits (bytesAt m.body 8 1) 3 0
def Msg.cnCls (m : Msg) : Nat := bits (bytesAt m.body 8 1) 5 4
def Msg.cnVc (m : Msg) : Nat := bits (bytesAt m.body 8 1) 6 6
def Msg.cnLenient (m : Msg) : Bool := bit (bytesAt m.body 8 1) 7
def Msg.cnSize (m : Msg) : Nat := bytesAt m.body 9 1 + 1

/-- Refusal reasons (R205). -/
abbrev Reason.notListening : Nat := 1
abbrev Reason.key : Nat := 2
abbrev Reason.rank : Nat := 3
abbrev Reason.cls : Nat := 4
abbrev Reason.full : Nat := 5
abbrev Reason.size : Nat := 6

/-- The first check of R204 that a CONNECT fails, if any. -/
def Core.connectRefusal (x : Core) (m : Msg) : Option Nat :=
  let g := x.galley m.cnGalley
  if ¬ g.listening ∨ (g.mode ≠ 1 ∧ g.mode ≠ 2) then some Reason.notListening
  else if m.cnKey ≠ g.key then some Reason.key
  else if m.cnVc = 0 ∧ x.rank ≤ m.cnRank then some Reason.rank
  else if g.classes ≤ m.cnCls then some Reason.cls
  else if g.grant m.cnCls < m.cnSize ∨ (g.mode = 2 ∧ m.cnSize ≠ g.isize) then some Reason.size
  else if g.maxch ≤ g.chans.length then some Reason.full
  else none

/-- The ACCEPT and the REFUSE of a CONNECT (R209). -/
def acceptMsg (forme me : Nat) (m : Msg) (grant : Nat) : Msg :=
  connMsg MT.accept forme me m.cnSource 0 (le m.cnPort 1 ++ zeros 1 ++ le grant 2)
def refuseMsg (forme me : Nat) (m : Msg) (reason : Nat) : Msg :=
  connMsg MT.refuse forme me m.cnSource 0 (le m.cnPort 1 ++ le reason 1)

/-- The channel that an accepted CONNECT makes (R207). -/
def Core.openChan (x : Core) (m : Msg) : Core :=
  x.updGalley m.cnGalley (fun g => { g with
    chans := g.chans ++ [⟨m.cnSource, m.cnPort, m.cnCls, m.cnSize, m.cnLenient, m.cnVc, g.grant m.cnCls⟩]
    shut := g.shut.filter (fun k => k != (m.cnSource, m.cnPort, m.cnCls)) })

/-- A CONNECT at its target core (R204, R207, R505). -/
def State.connectCore (s : State) (c : Nat) : State :=
  s.takeConn c MT.connect (fun m s =>
    match (s.core c).connectRefusal m with
    | some k => s.arrive c 4 (refuseMsg m.forme c m k)
    | none => (s.updCore c (·.openChan m)).arrive c 4 (acceptMsg m.forme c m (((s.core c).galley m.cnGalley).grant m.cnCls)))

/-- The unit's answer to a CONNECT: its grant is one that the port ignores (R323, log 30, DESIGN CHOICE). -/
def unitAnswer (m : Msg) (unit sy : Nat) (ok : Bool) : Msg :=
  let a := if ok then acceptMsg m.forme 0 m 1 else refuseMsg m.forme 0 m Reason.notListening
  { a with sx := unit, sy := sy }

/-- A CONNECT at a station, which always accepts (R322). -/
def State.connectStation (s : State) (n : Nat) : State :=
  match (s.station n).q1.find? (fun m => m.typ == MT.connect) with
  | none => s
  | some m => (s.updStation n (fun x => { x with q1 := x.q1.erase m }.takeOutside)).enter (unitAnswer m n 511 true)

/-- A CONNECT at a feeder port, which refuses a forme that it is not bound to (R368). -/
def State.connectPort (s : State) (p : Nat) : State :=
  match (s.fport p).ops.find? (fun m => m.typ == MT.connect) with
  | none => s
  | some m =>
    let ok := decide ((s.fport p).bound.map (·.forme) = some m.forme)
    (s.updFport p (fun x => { x with ops := x.ops.erase m })).enterPort p (unitAnswer m p 510 ok)

/-- A CONNECT at a host bay, which always accepts (R446). -/
def State.connectBay (s : State) (b : Nat) : State :=
  match (s.bay b).ops.find? (fun m => m.typ == MT.connect) with
  | none => s
  | some m => (s.updBay b (fun x => { x with ops := x.ops.erase m })).enter (unitAnswer m b 509 true)

/-- CONNECT, at a core, a station, a feeder port or a host bay. -/
def execConnectMsg (u : UnitRef) (s : State) : Out :=
  .next (if u.kind = 1 then s.connectCore u.n
    else if u.kind = 4 then s.connectStation u.n
    else if u.kind = 5 then s.connectPort u.n
    else if u.kind = 6 then s.connectBay u.n
    else s)

/-- ACCEPT: opens a PENDING port; a stray one from a core is answered with CLOSE (R200, R230, R323, R505). -/
def execAcceptMsg (c : Nat) (s : State) : Out :=
  .next (s.takeConn c MT.accept (fun m s =>
    let n := bytesAt m.body 0 1 % 16
    let p := (s.core c).port n
    let s := if (s.core c).st = .empty then s.countAbsorbed c else s
    if (s.core c).st ≠ .empty ∧ p.state = PortSt.pending ∧ p.target = m.src then
      let credit := if m.fromCore then bytesAt m.body 2 2 else ((s.core c).galley p.galley).grant p.cls
      s.updCore c (fun x => (x.updPort n (fun q => { q with state := PortSt.openSt, credit := credit })).wake)
    else if m.fromCore then s.arrive c 4 (closeMsgTo m.forme c m.src n false)
    else s))

/-- A connection message that only a core with a program takes (R505). -/
def State.takeLoaded (s : State) (c typ : Nat) (act : Msg → Core → Core) : State :=
  s.takeConn c typ (fun m s => if (s.core c).st = .empty then s.countAbsorbed c else s.updCore c (act m))

/-- REFUSE: a PENDING port returns to IDLE (R200, R230). -/
def execRefuseMsg (c : Nat) (s : State) : Out :=
  .next (s.takeLoaded c MT.refuse (fun m x =>
    let n := bytesAt m.body 0 1 % 16
    let p := x.port n
    if p.state = PortSt.pending ∧ p.target = m.src then
      ((x.updPort n (fun q => { q with state := PortSt.idle, credit := 0, reason := bytesAt m.body 1 1 % 8 })).setRef n).wake
    else x))

/-- Removes the channel of a core and port from the galley that holds it (R229, R230). -/
def Core.dropChannel (x : Core) (src port : Nat) : Core :=
  let is (c : Chan) : Bool := decide (c.src = src ∧ c.port = port)
  match (List.range 16).find? (fun n => (x.galley n).chans.any is) with
  | none => x
  | some n => x.updGalley n (fun g => { g with chans := g.chans.eraseP is })

/-- CLOSE: from the reader it closes a port, from the sender it removes a channel (R200, R229, R231). -/
def execCloseMsg (c : Nat) (s : State) : Out :=
  .next (s.takeLoaded c MT.close (fun m x =>
    let e := bytesAt m.body 0 1
    let n := e % 16
    if bit e 4 then
      let p := x.port n
      if p.state = PortSt.pending ∨ p.state = PortSt.openSt then
        (x.updPort n (fun q => { q with state := PortSt.closed, credit := 0, reserved := 0, lost := q.staged.isSome })).wake
      else x
    else x.dropChannel m.src n))

/-- CREDIT: returns slots to an OPEN port (R209, R230). -/
def execCreditMsg (c : Nat) (s : State) : Out :=
  .next (s.takeLoaded c MT.credit (fun m x =>
    let n := bytesAt m.body 0 1 % 16
    if (x.port n).state = PortSt.openSt then
      (x.updPort n (fun q => { q with credit := q.credit + bytesAt m.body 2 2 })).wake
    else x))

/-! ### A core dies (R24, R105, R253, R305, R521) -/

/-- Whether a core can die: of a powered field, on a site that its column powers, and not dead already. -/
def State.canDie (s : State) (c : Nat) : Bool :=
  (s.field (fieldOf c)).powered && s.fieldPresent (fieldOf c) && decide ((s.column (columnKey c)).length ≤ 2) && !s.died c

/-- The router that absorbs what a dying core's router held at an input: the neighbour there, the last on the message's path, or for
what had come further the first neighbour (R47, R253; log 93, DESIGN CHOICE). -/
def State.absorber (s : State) (c i : Nat) : Nat :=
  let near (l : List Nat) : List Nat := l.filterMap (s.neighbour c)
  ((if i < 4 then near [i] else []) ++ near [0, 1, 2, 3]).headD c

/-- The messages that a router holds, with their inputs; those further inside count as input 4. -/
def Router.holding (r : Router) : List (Nat × Msg) :=
  r.inq.flatMap (fun e => e.2.map (fun b => (e.1 / 2, b.msg))) ++ r.wait.flatMap (fun e => e.2.map (fun m => (e.1 / 2, m))) ++ r.ejq.flatMap (fun e => e.2.map (fun m => (4, m)))
    ++ r.held.map (fun h => (4, h.msg))

/-- The messages of a dying core's router are absorbed: counted, with a CLOSE to the source of DATA or CONNECT; what the core itself had
sent ends with it (R47, R105, R253). -/
def State.absorbAll (s : State) (c : Nat) : State :=
  let l := (s.router c).holding.filter (fun e => !(e.2.fromCore && e.2.src == c))
  let s := s.updRouter c (fun r => { r with inq := [], wait := [], ejq := [], held := [] })
  s.forAll l (fun s e => s.absorb (s.absorber c e.1) e.2)

/-- The release of a layer tree in the keeper ic in which a core dies, where its condition is met and a free bit says so: it counts, and no
more (R308; log 96, DESIGN CHOICE). -/
def State.lastRelease (s : State) (f : Nat) : State :=
  match (s.forme f).layer with
  | none => s
  | some t =>
    if (s.forme f).state = 3 ∧ (s.tree f t).external = false ∧ s.treeMet f t then
      let d := s.draw
      if d.1 % 2 = 1 then
        let out := (if (s.tree f t).isOr then (s.tree f t).arrived.take 1 else (s.tree f t).arrived).length
        (d.2.updTree f t (fun y => { y with arrived := y.arrived.drop out, releases := (y.releases + 1) % 2 ^ 32 })).finishWaits f t
      else d.2
    else s

/-- CORE_LOST: its router's messages absorbed, the dead site appended, which blocks the links to it, CORE_LOST posted and its forme
faulted; a release of the layer tree in the same ic counts (R308). -/
def execCoreLost (c : Nat) (power : Bool) (s : State) : Out :=
  .next (if s.canDie c then
      let f := s.formeOf c
      let s := match f with
        | some n => s.lastRelease n
        | none => s
      let site := s.deadSite c 3
      let shift := s.shiftOf c
      let detail := le site.row 1 ++ le shift 1 ++ le (b2n power) 1
      let s := s.absorbAll c
      let s := s.appendHb site f 1 c
      let s := s.post { RecSpec.event Config.clsCoreLost 1 c detail with forme := f }
      match f with
      | some n => s.faultForme n (FaultSpec.ofCore Config.faultCode Config.clsCoreLost c 0 0 detail)
      | none => s
    else s)

end Sys2Proof.Machine
end

