-- ==== Sys2Proof/Machine/Rings.lean ====
section
/-! DEFINITION. The ring engine: doorbells, fetching, the start of a command and its checks, and the record rings
(R410-R426, R444-R453). -/

namespace Sys2Proof.Machine

/-! ### Fetching (R412-R417) -/

/-- What a fetched FENCE waits for: its own ring's earlier entries, and those that each named ring has fetched (R426). -/
def State.fenceWaits (s : State) (r sq : Nat) (b : Bytes) : List (Nat × Nat) :=
  let mask := bytesAt b 16 8 + 2 ^ 64 * bytesAt b 24 1
  (r, sq) :: ((maskList mask 72).filter (fun n => n != r)).map (fun n => (n, (s.ring n).fetched))

/-- Fetches one entry: its digest is recorded (R420, R549). -/
def State.fetchOne (s : State) (r : Nat) : State :=
  let g := s.ring r
  let b := s.hostRead (g.sbase + 64 * (g.fetched % g.size)) 64
  let fence := if bytesAt b 0 2 = 0x100C then [(g.fetched, s.fenceWaits r g.fetched b)] else []
  let s := s.descriptorDigest r g.fetched (if r < 64 then some r else none) b
  s.updRing r (fun g => { g with
    entries := g.entries ++ [(g.fetched, b)], fences := g.fences ++ fence, fetched := (g.fetched + 1) % 2 ^ 32 })

/-- Reads the doorbell line of an ACTIVE submission ring and fetches every pending entry; invalid indices fetch nothing
and write BADARG to err (R415-R417); nothing comes in while the proof recorder is full (R452). -/
def State.fetch (s : State) (r : Nat) : State :=
  let g := s.ring r
  if r < 72 ∧ g.state = 1 ∧ s.ringLink r ∧ ¬ s.proofFull then
    let tail := s.hostNat g.dbline 4
    let head := s.hostNat (g.dbline + 4) 4
    if ahead tail g.fetched > g.size ∨ ahead g.produced head > g.csize then
      s.updRing r (fun g => { g with err := Config.badArg })
    else
      let s := s.updRing r (fun g => { g with tail := tail, consumed := head })
      if ahead tail g.fetched = 0 then s
      else (s.forAll (List.range (ahead tail g.fetched)) (fun s _ => s.fetchOne r)).writeConsumer r
  else s

/-- DOORBELL_SNOOP (R416): the host's store to a doorbell line wakes the ring engine. -/
def execDoorbellSnoop (r : Nat) (stores : List HostStore) (s : State) : Host.Outcome State Fault Refusal :=
  .next (((s.hostStores stores).fetch r).settleEnded)

/-- The host's consumer index of a record ring, taken when it lies at or before the producer index (R414). -/
def State.takeConsumer (s : State) (r : Nat) : State :=
  let g := s.ring r
  if 72 ≤ r ∧ g.state = 1 ∧ s.ringLink r then
    let c := s.hostNat g.dbline 4
    if ahead g.produced c ≤ g.size then s.updRing r (fun g => { g with consumed := c })
    else s.updRing r (fun g => { g with err := Config.badArg })
  else s

/-- CONSUMER_LINE_SNOOP (R389, R414): a host store to a record ring's consumer line frees ring space. -/
def execConsumerLineSnoop (r : Nat) (stores : List HostStore) (s : State) : Host.Outcome State Fault Refusal :=
  .next ((s.hostStores stores).takeConsumer r)

/-! ### Record rings (R449-R452, R546) -/

/-- Writes `t` units of furniture at the producer index (R451). -/
def State.putFurniture (s : State) (r t : Nat) : State :=
  if t = 0 then s
  else
    let g := s.ring r
    (s.hostPut (g.sbase + 32 * (g.produced % g.size)) (le t 1 ++ zeros 31) false).updRing r (fun g =>
      { g with produced := (g.produced + t) % 2 ^ 32 })

/-- Counts a written record of `u` units: its indices, its line and its interrupt (R414, R432). -/
def State.recordWritten (s : State) (r u : Nat) : State :=
  ((s.updRing r (fun g => { g with produced := (g.produced + u) % 2 ^ 32, seq := (g.seq + 1) % 2 ^ 32 })).writeProducer r).countIrq r

/-- EVENT_RECORD_WRITE (R452): the oldest held record goes to the event ring, with the count of those dropped before it. -/
def State.writeEvent (s : State) : State :=
  let g := s.ring 72
  match s.mgmt.evHold with
  | [] => s
  | b :: rest =>
    if g.state = 1 ∧ s.ringLink 72 ∧ 0 < g.space then
      let b := b.take 24 ++ le (min s.mgmt.evDropped (2 ^ 32 - 1)) 4 ++ b.drop 28
      let s := { s with mgmt := { s.mgmt with evHold := rest, evDropped := 0 } }
      let s := (s.hostPut (g.sbase + 64 * (g.produced % g.size)) b false).recordWritten 72 1
      if !rest.isEmpty && s.eventFull then s.setStatus 6 else s
    else s

def execEventRecordWrite (s : State) : Host.Outcome State Fault Refusal := .next s.writeEvent.settleEnded

/-- The header unit of a report record (R449). -/
def Report.header (p : Report) (seq : Nat) : Bytes :=
  le (1 + p.slots.length) 1 ++ le 1 1 ++ le (0x80 + p.forme) 1 ++ le (b2n (anyPoison p.slots)) 1
    ++ le (p.core + 2 ^ 18 * p.port) 4 ++ le p.tag 2 ++ zeros 2 ++ le seq 4 ++ zeros 16

/-- The answer to the REPORT that closed a record. -/
def State.answerReport (s : State) (p : Report) (code value : Nat) : State :=
  match p.reply with
  | some y => s.bayAnswer p.bay y [] code value
  | none => s

/-- REPORT_RECORD_WRITE (R451): the record that closed first is written, after furniture where it would wrap, and its REPORT
is answered with the unit index of its header (R448); a ring that is no longer enabled gives BADSTATE (R453). -/
def State.writeReport (s : State) : State :=
  let g := s.ring 73
  match s.reports with
  | [] => s
  | p :: rest =>
    if g.state ≠ 1 then ({ s with reports := rest }).answerReport p Config.badState 0
    else
      let u := 1 + p.slots.length
      match (if s.ringLink 73 then g.furniture u else none) with
      | none => s
      | some t =>
        let s := ({ s with reports := rest }).putFurniture 73 t
        let at0 := (s.ring 73).produced
        let a := g.sbase + 32 * (at0 % g.size)
        let s := (s.hostPut a (p.header g.seq) false).hostPutSlots (a + 32) p.slots
        (s.recordWritten 73 u).answerReport p Config.ok at0

def execReportRecordWrite (s : State) : Host.Outcome State Fault Refusal := .next s.writeReport.settleEnded

/-- PROOF_RECORD_WRITE (R546, R451): the oldest closed proof record goes to the proof ring, its seq filled in (R547). -/
def State.writeProof (s : State) : State :=
  let g := s.ring 74
  match s.recorder.queue with
  | [] => s
  | b :: rest =>
    if g.state = 1 ∧ s.ringLink 74 then
      match g.furniture (b.length / 32) with
      | none => s
      | some t =>
        let s := ({ s with recorder := { s.recorder with queue := rest } }).putFurniture 74 t
        let a := g.sbase + 32 * ((s.ring 74).produced % g.size)
        let full := s.proofFull
        let s := (s.hostPut a (b.take 4 ++ le g.seq 4 ++ b.drop 8) false).recordWritten 74 (b.length / 32)
        if full then s else s.forAll (List.range 72) State.fetch
    else s

def execProofRecordWrite (s : State) : Host.Outcome State Fault Refusal := .next s.writeProof

/-! ### The checks of a starting command (R421, R423, R434, R444, R445) -/

/-- Whether an opcode is one of R433. -/
def isOpcode (op : Nat) : Bool := decide ((1 ≤ op ∧ op ≤ 0x000E) ∨ (0x1000 ≤ op ∧ op ≤ 0x100D))

/-- Whether every ring accepts an opcode: FENCE, MARK and NOP (R421). -/
def anyRing (op : Nat) : Bool := decide (op = 0x1000 ∨ op = 0x100C ∨ op = 0x100D)

/-- Whether a ring accepts an opcode (R421). -/
def ringAccepts (r op : Nat) : Bool := anyRing op || (decide (r < 64) == decide (op ≥ 0x1000))

/-- An rsv range of an entry that is not zero. -/
def gap (b : Bytes) (off size : Nat) : Nat × Bool := (off, !zeroAt b off size)

/-- The offset of the first field of a list that offends. -/
def firstBad (l : List (Nat × Bool)) : Option Nat := ((l.filter (·.2)).head?).map (·.1)

/-- A forme operand above 63. -/
def badForme (b : Bytes) : Nat × Bool := (16, decide (bytesAt b 16 1 > 63))

/-- The first byte of a range of unlisted operand bytes that is not zero: each is rsv of its own (R434, log 53, DEDUCED). -/
def unlisted (b : Bytes) (off size : Nat) : Nat × Bool :=
  match (List.range size).find? (fun i => bytesAt b (off + i) 1 != 0) with
  | some i => (off + i, true)
  | none => (off, false)

/-- Whether a QUERY's `first` has rsv bits set, by selector (R439). -/
def queryRsv (sel first : Nat) : Bool :=
  match sel with
  | 3 => decide (2 ^ 46 ≤ first)
  | 4 => decide (2 ^ 36 ≤ first)
  | 5 => decide (2 ^ 18 ≤ first)
  | 6 => decide (2 ^ 16 ≤ first)
  | 7 => decide (2 ^ 26 ≤ first ∨ bits first 15 9 ≠ 0)
  | 8 => decide (2 ^ 28 ≤ first)
  | _ => decide (first ≠ 0)

/-- Whether a SET_CLOCKS mask has bits set that name no unit of its kind (R434). -/
def clockMaskRsv (kind mask : Nat) : Bool :=
  if kind = 1 then decide (2 ^ 56 ≤ mask) else if kind = 2 then decide (2 ^ 16 ≤ mask) else decide (mask ≠ 0)

/-- The rsv fields and reserved codes of a command's operands, in ascending offset (R434, R283); a field that the command's kind or
selector does not use is rsv (log 58, DEDUCED). -/
def operandChecks (op : Nat) (b : Bytes) : List (Nat × Bool) :=
  match op with
  | 0x0001 => [unlisted b 28 36]
  | 0x0002 => [(16, decide (bytesAt b 16 1 > 4)), (17, decide (if bytesAt b 16 1 = 0 then bytesAt b 17 1 > 63 else bytesAt b 17 1 ≠ 0)), unlisted b 20 4,
      (24, clockMaskRsv (bytesAt b 16 1) (bytesAt b 24 8)), unlisted b 32 32]
  | 0x0003 => [badForme b, (17, decide (bytesAt b 17 1 > 2)), unlisted b 18 6, unlisted b 32 32]
  | 0x0004 => [badForme b, unlisted b 17 47]
  | 0x0005 => [badForme b, unlisted b 17 47]
  | 0x0006 => [unlisted b 20 44]
  | 0x0007 => [unlisted b 20 44]
  | 0x0008 => [badForme b, unlisted b 17 7, (40, decide (bytesAt b 40 1 > 1)), (42, decide (bytesAt b 42 1 ≥ 16)),
      gap b 43 13, unlisted b 56 8]
  | 0x0009 => [badForme b, (18, decide (bytesAt b 18 1 > 1)), unlisted b 19 1, unlisted b 22 2,
      (24, decide (bytesAt b 24 4 ≥ 2 ^ 20)), unlisted b 28 36]
  | 0x000A => [badForme b, unlisted b 18 6, unlisted b 32 32]
  | 0x000B => [(16, decide (bytesAt b 16 2 = 0 ∨ bytesAt b 16 2 > 9)),
      (18, decide (if bytesAt b 16 2 = 2 then bytesAt b 18 1 > 63 else bytesAt b 18 1 ≠ 0)), unlisted b 19 1,
      (20, decide (bytesAt b 16 2 ≠ 3 ∧ bytesAt b 16 2 ≠ 7 ∧ bytesAt b 20 4 ≠ 0)), (24, queryRsv (bytesAt b 16 2) (bytesAt b 24 8)),
      unlisted b 44 20]
  | 0x000C => [unlisted b 28 4]
  | 0x000D => [(16, decide (bytesAt b 16 1 > 2)), unlisted b 17 7, (24, decide (2 ^ 56 ≤ bytesAt b 24 8)), unlisted b 32 32]
  | 0x000E => [unlisted b 28 36]
  | 0x1000 => [unlisted b 16 48]
  | 0x1001 => [unlisted b 32 32]
  | 0x1002 => [unlisted b 25 39]
  | 0x1003 => [unlisted b 25 39]
  | 0x1004 => [unlisted b 25 39]
  | 0x1005 => [unlisted b 16 48]
  | 0x1006 => [(16, decide (bytesAt b 16 1 > 15)), unlisted b 17 3, unlisted b 24 40]
  | 0x1007 => [(25, decide (bytesAt b 25 1 > 1)), unlisted b 26 38]
  | 0x1008 => [unlisted b 25 39]
  | 0x1009 => [unlisted b 32 32]
  | 0x100A => [unlisted b 20 44]
  | 0x100B => [unlisted b 20 4, unlisted b 32 32]
  | 0x100C => [unlisted b 25 39]
  | 0x100D => [unlisted b 24 40]
  | _ => []

/-- The offset that an encoding check refuses: the ring, the flags, the rsv fields and the reserved codes (R419, R421). -/
def badEncoding (r op : Nat) (b : Bytes) : Option Nat :=
  firstBad ([(0, !ringAccepts r op), (2, decide (bytesAt b 2 1 ≥ 32)), gap b 3 1, gap b 8 8] ++ operandChecks op b)

/-- A command from a fetched entry (R419). -/
def Cmd.ofEntry (sq : Nat) (b : Bytes) (waits : List (Nat × Nat)) : Cmd :=
  { sq := sq, opcode := bytesAt b 0 2, tag := bytesAt b 4 4, flags := bytesAt b 2 1, entry := b, parts := [],
    select := bytesAt b 0 2, orig := none, waits := waits, prf := false, ended := none }

/-- The cluster that RESET_CLUSTER or RESET_CORE names, when the wafer has it. -/
def Cmd.namedCluster (c : Cmd) : Option Nat :=
  let a := bytesAt c.entry 16 2
  let b := bytesAt c.entry 18 2
  if c.opcode = 0x0006 then (if a < 128 ∧ b < 112 then some (clusterAt a b) else none)
  else (if a < 512 ∧ b < 448 then some (clusterAt (a / 4) (b / 4)) else none)

/-- The forme whose state judges a command (R421, R445). -/
def State.judgedBy (s : State) (r : Nat) (c : Cmd) : Option Nat :=
  let op := c.opcode
  if anyRing op then none
  else if op ≥ 0x1000 then some r
  else if op = 0x0002 then (if bytesAt c.entry 16 1 = 0 then some (bytesAt c.entry 17 1) else none)
  else if (3 ≤ op ∧ op ≤ 5) ∨ (8 ≤ op ∧ op ≤ 10) then some (bytesAt c.entry 16 1)
  else if op = 6 ∨ op = 7 then
    match c.namedCluster with
    | some k => (s.cluster k).forme
    | none => none
  else none

/-- Whether a part table of an ACCUMULATE_OUT to the feeders has a core-source part (R436, R445). -/
def State.coreSourced (s : State) (b : Bytes) : Bool :=
  let n := bytesAt b 24 1
  let a := bytesAt b 16 8
  decide (bytesAt b 25 1 = 0 ∧ 1 ≤ n ∧ n ≤ 64 ∧ a % 32 = 0)
    && (List.range n).any (fun i => decide (s.hostNat (a + 32 * i + 1) 1 = 0))

/-- Whether a tree's release counter has reached a target (R300). -/
def State.releaseMet (s : State) (f t target : Nat) : Bool :=
  decide (ahead (Map.get Tree.init (s.forme f).trees t).releases target < 2 ^ 31)

/-- The record of a command that completed with PARTIAL (R437). -/
def Ring.partialOf (g : Ring) (sq : Nat) : Option Partial := g.partials.find? (fun p => p.sq == sq)

/-- The forme states in which a command is legal, by the row of R445. -/
def legalStates (op : Nat) (unbind core : Bool) : List Nat :=
  match op with
  | 0x0003 => [0]
  | 0x0004 => [1, 2, 3, 4, 5]
  | 0x0005 => [1, 2, 3, 4, 5]
  | 0x0006 => [1, 2, 4, 5]
  | 0x0007 => [1, 2, 4, 5]
  | 0x0008 => [1, 2, 3, 4, 5]
  | 0x0009 => if unbind then [1, 2, 4, 5] else [1, 2, 3, 4, 5]
  | 0x000A => [1, 2, 4, 5]
  | 0x0002 => [1, 2, 4, 5]
  | 0x1001 => [1, 2]
  | 0x1005 => [2]
  | 0x1004 => [3]
  | 0x1007 => if core then [3] else [1, 2, 3, 4, 5]
  | _ => [1, 2, 3, 4, 5]

/-- Whether the state of forme `f` admits a command (R445). -/
def State.formeAdmits (s : State) (r f : Nat) (c : Cmd) : Bool :=
  let st := (s.forme f).state
  if c.opcode = 0x1006 then
    decide (st = 3)
      || (decide (st = 2 ∨ st = 4 ∨ st = 5) && s.releaseMet f (bytesAt c.entry 16 1) (bytesAt c.entry 20 4))
  else if c.opcode = 0x100B then
    match (s.ring r).partialOf (bytesAt c.entry 16 4) with
    | none => true
    | some p =>
      (legalStates p.opcode false (decide (bytesAt p.entry 25 1 = 0) && p.parts.any (fun x => decide (bytesAt x.desc 1 1 = 0)))).contains st
  else (legalStates c.opcode (decide (bytesAt c.entry 18 1 = 1)) (s.coreSourced c.entry)).contains st

/-- The lowest RUNNING forme. -/
def State.runningForme (s : State) : Option Nat := (List.range 64).find? (fun f => decide ((s.forme f).state = 3))

/-- Whether the device state admits an opcode (R444). -/
def State.deviceAdmits (s : State) (op : Nat) : Bool :=
  s.operating || (decide (s.regs.devState = Dev.failed)
    && (anyRing op || decide (op = 0x0004 ∨ op = 0x000B ∨ op = 0x000C ∨ op = 0x000E)))

/-- The first check, of the three that every command has, that refuses it (R423). -/
def State.refusedAtStart (s : State) (r : Nat) (c : Cmd) : Option Compl :=
  match badEncoding r c.opcode c.entry with
  | some off => some (Compl.badArg off)
  | none =>
    let f := s.judgedBy r c
    if ¬ s.deviceAdmits c.opcode then
      some (match f with
        | some n => s.badState n
        | none => s.badDevice)
    else
      match f with
      | some n => if s.formeAdmits r n c then none else some (s.badState n)
      | none =>
        if c.opcode = 0x0002 ∧ (bytesAt c.entry 16 1 = 1 ∨ bytesAt c.entry 16 1 = 2) then
          match s.runningForme with
          | some n => some (s.badState n)
          | none => none
        else none

/-! ### Starting (R420-R424) -/

/-- The entry that a ring may start now: its oldest, when its DEP and FENCE conditions are met, fewer than 64 commands are
outstanding and a completion slot can be reserved (R420, R422); none while the recorder's buffer is full (R452) or the
bay's link is down. -/
def State.startable (s : State) (r : Nat) : Option (Nat × Bytes) :=
  let g := s.ring r
  match g.entries.head? with
  | none => none
  | some e =>
    let flags := bytesAt e.2 2 1
    let dep := !flags.testBit 0 || decide (g.lastSq = none) || g.lastStatus.isSome
    let fence := !flags.testBit 1 || g.cmds.isEmpty
    if g.state = 1 ∧ r < 72 ∧ s.ringLink r ∧ ¬ s.proofFull ∧ dep ∧ fence ∧ g.cmds.length < 64
      ∧ g.cmds.length + ahead g.produced g.consumed < g.csize then some e else none

/-- Whether the DEP of an entry finds that the entry before it did not complete with OK (R420, R424). -/
def Ring.depFails (g : Ring) (b : Bytes) : Bool :=
  (bytesAt b 2 1).testBit 0 && g.lastSq.isSome && decide (g.lastStatus ≠ some Config.ok)

/-- Takes the entry at the head of a ring as an outstanding command. -/
def Ring.take (g : Ring) (c : Cmd) : Ring :=
  { g with entries := g.entries.tail, fences := g.fences.filter (fun e => e.1 != c.sq), lastSq := some c.sq,
           lastStatus := none, cmds := g.cmds ++ [c] }

/-- Whether a command that carries PROOF records fingerprints (R420). -/
def State.proves (s : State) (c : Cmd) : Bool :=
  s.recording && c.flags.testBit 3 && decide (c.opcode = 0x1003 ∨ c.opcode = 0x1004 ∨ c.opcode = 0x1005 ∨ c.opcode = 0x1007 ∨ c.opcode = 0x1008)

/-- Starts the oldest entry of a ring when it is one that `mine` names: a failed DEP, an unknown opcode and the checks of R423
come first, and `run` is the command's own effect (R420-R424). -/
def State.startRing (s : State) (r : Nat) (mine : Cmd → Bool) (run : State → Cmd → State) : State :=
  match s.startable r with
  | none => s
  | some e =>
    let g := s.ring r
    let waits := match g.fences.find? (fun x => x.1 == e.1) with
      | some x => x.2
      | none => []
    let c := Cmd.ofEntry e.1 e.2 waits
    let taken := s.updRing r (·.take c)
    if g.depFails e.2 then
      taken.finish r c { Compl.bare Config.skipped with value := (e.1 + 2 ^ 32 - 1) % 2 ^ 32 }
    else if ¬ isOpcode c.opcode then taken.finish r c (Compl.badArg 0)
    else if ¬ mine c then s
    else
      match s.refusedAtStart r c with
      | some k => taken.finish r c k
      | none =>
        let t := run taken c
        if ((t.ring r).cmd c.sq).isSome then t.writeConsumer r else t

/-- A command whose opcode is `op`. -/
def opIs (op : Nat) (c : Cmd) : Bool := decide (c.opcode = op)

end Sys2Proof.Machine
end

