-- ==== Sys2Proof/Machine/Stations.lean ====
section
/-! DEFINITION. Memory stations: station memory and its code, the combining area, requests and their answers, accumulation,
conversion, update recipes, contexts, ordered replay and scrubbing (R309-R346, R552-R557). -/

namespace Sys2Proof.Machine

/-! ### Addresses and admission (R311, R312, R284, R285) -/

/-- The first offset of the addressable buffer, and the end of the DRAM. -/
abbrev bufferBase : Nat := 0x180000000
abbrev dramEnd : Nat := 0x140000000

/-- A near-tier address. -/
def nearAddr (n off : Nat) : Nat := n * 2 ^ 33 + off

/-- Whether a range of offsets exists in the build (R311). -/
def State.offsetsExist (s : State) (off len : Nat) : Bool :=
  (s.phys.stacked && decide (off + len ≤ dramEnd)) || (decide (bufferBase ≤ off ∧ off + len ≤ 0x180C00000))

/-- Whether the near-tier test runs on a field (R503). -/
def State.nearTesting (s : State) (fd : Nat) : Bool := decide ((s.field fd).testing = 2)

/-- An access of a request: address, bytes and right. -/
structure Access where
  addr : Nat
  len : Nat
  right : Nat

/-- The failure of R311 of one access at station `n`, if any. -/
def State.misplaced (s : State) (n : Nat) (a : Access) : Option Nat :=
  let st := a.addr / 2 ^ 33
  if 448 ≤ st then some Config.badArg
  else if ¬ s.stationPresent st then some Config.absent
  else if st ≠ n ∨ ¬ s.offsetsExist (a.addr % 2 ^ 33) a.len then some Config.badArg
  else none

/-- Whether an access touches a granule that the near-tier test retired (R495). -/
def State.touchesRetired (s : State) (n : Nat) (a : Access) : Bool :=
  (s.station n).granules.any (fun g => decide (g * 4096 < a.addr % 2 ^ 33 + a.len ∧ a.addr % 2 ^ 33 < g * 4096 + 4096))

/-- The status that the accesses of a request of forme `f` meet before any is performed (R285, R311, R317, R495, R503;
the order of the checks is log 31, DEDUCED). -/
def State.access (s : State) (n f : Nat) (l : List Access) : Nat :=
  if s.nearTesting (n / 8) then Config.badState
  else
    match (l.filterMap (s.misplaced n)).head? with
    | some c => c
    | none =>
      if l.any (fun a => !s.nearAdmits f a.addr a.len a.right) then Config.deniedCode
      else if l.any (s.touchesRetired n) then Config.faultCode
      else Config.ok

/-! ### Codewords at rest (R312, R340, R341) -/

/-- A station at work: the state, the station, the forme whose containment governs (R513), and whether a correction was
made. -/
structure Sta where
  s : State
  n : Nat
  f : Option Nat
  cor : Bool

/-- Memory code of R534 for an offset. -/
def memKind (off : Nat) : Nat := if bufferBase ≤ off then 3 else 4

/-- Changes the station. -/
def Sta.upd (x : Sta) (g : Station → Station) : Sta := { x with s := x.s.updStation x.n g }

/-- The station as it is. -/
def Sta.me (x : Sta) : Station := x.s.station x.n

/-- A DRAM access ends self-refresh (R342). -/
def Sta.touch (x : Sta) (off : Nat) : Sta :=
  if off < dramEnd ∧ x.me.selfRefresh then x.upd (fun m => { m with selfRefresh := false }) else x

/-- What a read makes of a codeword in memory `mem` at `loc`: a correctable error is corrected, an uncorrectable one becomes poison, and
both are counted and reported (R340). -/
def Sta.repair (x : Sta) (mem loc : Nat) (w : Cw) : Cw × Sta :=
  match w with
  | .correctable =>
    let x := x.upd (fun m => { m with corrected := satAdd m.corrected 1 32 })
    (.clean, { x with s := x.s.noteCorrected 4 x.n mem loc, cor := true })
  | .uncorrectable =>
    let x := x.upd (fun m => { m with uncorrected := satAdd m.uncorrected 1 32 })
    (.poison, { x with s := x.s.noteUncorrected x.f 4 x.n mem loc 2 })
  | c => (c, x)

/-- Reads codeword `k`, and writes it back as the read leaves it (R340). -/
def Sta.cw (x : Sta) (k : Nat) : Cw × Sta :=
  let x := x.touch (16 * k)
  let w := Map.get Cw.clean x.me.ecc k
  let r := x.repair (memKind (16 * k)) (nearAddr x.n (16 * k)) w
  (r.1, if r.1 = w then r.2 else r.2.upd (fun m => { m with ecc := Map.set Cw.clean m.ecc k r.1 }))

/-- A 32-byte line of memory, without sums held for it. -/
def Sta.raw (x : Sta) (off : Nat) : Slot × Sta :=
  let a := x.cw (off / 16)
  let b := a.2.cw (off / 16 + 1)
  ({ slotOf (b.2.me.mem.readN off 32) with lo := a.1, hi := b.1 }, b.2)

/-- The sum that the combining area holds for a line. -/
def Station.heldSum (m : Station) (off : Nat) : Option CombLine := m.comb.find? (fun c => c.line == off / 32)

/-- Reads the sum held for a line out of the combining area, and writes its codewords back as the read leaves them (R340; the location
reported is its line's, log 100, DESIGN CHOICE). -/
def Sta.held (x : Sta) (off : Nat) : Option CombLine × Sta :=
  match x.me.heldSum off with
  | none => (none, x)
  | some c =>
    let a := x.repair 3 (nearAddr x.n (32 * c.line)) c.slot.lo
    let b := a.2.repair 3 (nearAddr x.n (32 * c.line + 16)) c.slot.hi
    let e := { c with slot := { c.slot with lo := a.1, hi := b.1 } }
    (some e, b.2.upd (fun m => { m with comb := m.comb.map (fun d => if d.line = c.line then e else d) }))

/-- A line as a READ returns it, with the sum held for it (R318). -/
def Sta.line (x : Sta) (off : Nat) : Slot × Sta :=
  let r := x.raw off
  let h := r.2.held off
  match h.1 with
  | some c => (Slot.add c.fmt r.1 c.slot, h.2)
  | none => (r.1, h.2)

/-- Consecutive lines. -/
def Sta.lines (x : Sta) (off : Nat) : Nat → List Slot × Sta
  | 0 => ([], x)
  | k + 1 =>
    let a := x.line off
    let b := a.2.lines (off + 32) k
    (a.1 :: b.1, b.2)

/-- Writes whole codewords of a line as they come (R312, R341). -/
def Sta.put (x : Sta) (off : Nat) (v : Slot) : Sta :=
  (x.touch off).upd (fun m => { m with
    mem := m.mem.writeN off v.bytes
    ecc := Map.set Cw.clean (Map.set Cw.clean m.ecc (off / 16) v.lo) (off / 16 + 1) v.hi })

/-- Writes a held sum back to its line (R328). -/
def Sta.writeBack (x : Sta) (off : Nat) : Sta :=
  let h := x.held off
  match h.1 with
  | none => h.2
  | some c =>
    let r := h.2.raw (32 * c.line)
    (r.2.put (32 * c.line) (Slot.add c.fmt r.1 c.slot)).upd (fun m => { m with comb := m.comb.filter (fun d => d.line != c.line) })

/-- Writes a whole line; a sum held for it is overtaken. -/
def Sta.store (x : Sta) (off : Nat) (v : Slot) : Sta :=
  (x.upd (fun m => { m with comb := m.comb.filter (fun d => d.line != off / 32) })).put off v

/-- Writes consecutive lines. -/
def Sta.storeLines (x : Sta) (off : Nat) : List Slot → Sta
  | [] => x
  | v :: t => (x.store off v).storeLines (off + 32) t

/-- Writes bytes inside one codeword: a whole codeword replaces poison, a partial write leaves it (R341). -/
def Sta.chunk (x : Sta) (off : Nat) (b : Bytes) (psn : Bool) : Sta :=
  let x := x.writeBack off
  if b.length = 16 then
    (x.touch off).upd (fun m => { m with
      mem := m.mem.writeN off b, ecc := Map.set Cw.clean m.ecc (off / 16) (Cw.ofPoison psn) })
  else
    let r := x.cw (off / 16)
    r.2.upd (fun m => { m with
      mem := m.mem.writeN off b, ecc := Map.set Cw.clean m.ecc (off / 16) (Cw.ofPoison (psn || r.1 == .poison)) })

/-- Writes elements of `w` bits from a codeword boundary, a codeword at a time. -/
def Sta.storeElems (x : Sta) (w off : Nat) : Nat → List (Nat × Bool) → Sta
  | 0, _ => x
  | k + 1, l =>
    if l.isEmpty then x
    else
      let e := l.take (128 / w)
      let b := le (packBits w (e.map (·.1))) (e.length * w / 8)
      (x.chunk off b (e.any (·.2))).storeElems w (off + 16) k (l.drop (128 / w))

/-- The elements of a slot, each with its codeword's poison. -/
def slotElems (w : Nat) (v : Slot) : List (Nat × Bool) :=
  (List.range (256 / w)).map (fun i => (elemBits w v.data.toNat i, (if i * w < 128 then v.lo else v.hi) == .poison))

/-- Elements of `w` bits read from a line boundary. -/
def Sta.elems (x : Sta) (w off count : Nat) : List (Nat × Bool) × Sta :=
  let r := x.lines off ((count * w + 255) / 256)
  ((r.1.flatMap (slotElems w)).take count, r.2)

/-- Payload codewords that the station consumes: corrected, or poisoned and reported (R246, R514). -/
def Sta.consume (x : Sta) (l : List Slot) : List Slot × Sta :=
  let y := (codewords l).foldl (fun (x : Sta) c =>
    if c = .correctable then { x with s := x.s.noteCorrected 4 x.n 7 0, cor := true }
    else if c = .uncorrectable then { x with s := x.s.noteUncorrected x.f 4 x.n 7 0 2 }
    else x) x
  (l.map (fun v => { v with lo := v.lo.read, hi := v.hi.read }), y)

/-! ### Contexts (R335-R339) -/

/-- A context entry. -/
def Station.entry (m : Station) (i : Nat) : Ctx := Map.get Ctx.init m.ctx i

/-- The handle of an entry (R336). -/
def ctxHandle (n i gen : Nat) : Nat := i + 2 ^ 10 * n + 2 ^ 19 * (gen % 2 ^ 13)

/-- Records the source of a write whose first byte lies in a LIVE region (R339). -/
def Sta.wrote (x : Sta) (addr writer : Nat) : Sta :=
  x.upd (fun m => { m with ctx := m.ctx.map (fun (e : Nat × Ctx) =>
    if e.2.live ∧ e.2.base ≤ addr ∧ addr < e.2.base + e.2.length then (e.1, { e.2 with writer := some writer }) else e) })

/-- CTX_ALLOC's outcome for a region: a status and the handle (R337); it accesses no byte of the region, and passes over an entry that
cannot be read (log 35, DEDUCED). -/
def Sta.ctxAlloc (x : Sta) (f base len : Nat) : Nat × Nat × Sta :=
  let m := x.me
  let c := (x.s.misplaced x.n ⟨base, len, 1⟩).getD Config.ok
  if c ≠ Config.ok then (c, 0, x)
  else if base % 32 ≠ 0 ∨ len = 0 ∨ dramEnd < base % 2 ^ 33 + len then (Config.badArg, 0, x)
  else if ¬ x.s.nearAdmits f base len 1 then (Config.deniedCode, 0, x)
  else if m.ctx.any (fun e => decide (e.2.live ∧ e.2.base < base + len ∧ base < e.2.base + e.2.length)) then
    (Config.badState, 0, x)
  else
    match (List.range 1024).find? (fun i => !(m.entry i).live && (m.entry i).cw != .poison) with
    | none => (Config.noSpace, 0, x)
    | some i =>
      let e := { m.entry i with base := base, length := len, forme := f, live := true, writer := none }
      (Config.ok, ctxHandle x.n i e.generation, x.upd (fun m => { m with ctx := Map.set Ctx.init m.ctx i e }))

/-- Reads a context entry out of the table: whether it is poisoned (R340; log 35, DEDUCED). -/
def Sta.readEntry (x : Sta) (i : Nat) : Bool × Sta :=
  let w := (x.me.entry i).cw
  let r := x.repair 5 i w
  (r.1 == .poison, if r.1 = w then r.2 else r.2.upd (fun m => { m with ctx := Map.upd Ctx.init m.ctx i (fun e => { e with cw := r.1 }) }))

/-- Reads every listed entry, as CTX_ALLOC must to find a FREE one and an overlap. -/
def Sta.readTable (x : Sta) : Sta := (x.me.ctx.map (·.1)).foldl (fun (x : Sta) i => (x.readEntry i).2) x

/-- The entry that a handle names, or the status that refuses it (R338); a handle of another station names no entry
(log 32, DEDUCED). -/
def State.ctxEntry (s : State) (n f h : Nat) : Nat × Nat :=
  let i := bits h 9 0
  let e := (s.station n).entry i
  if bits h 18 10 ≠ n then (Config.badArg, i)
  else if ¬ e.live ∨ bits h 31 19 ≠ e.generation % 2 ^ 13 then (Config.badState, i)
  else if e.forme ≠ f then (Config.deniedCode, i)
  else (Config.ok, i)

/-- Frees an entry (R338). -/
def Sta.ctxFree (x : Sta) (i : Nat) : Sta :=
  x.upd (fun m => { m with ctx := Map.upd Ctx.init m.ctx i (fun e => { e with live := false, generation := (e.generation + 1) % 2 ^ 32 }) })

/-! ### Accumulate order and ordered replay (R345, R552, R556, R557) -/

/-- The eight bytes of an order entry (R552). -/
def OrderEntry.bytes (e : OrderEntry) : Bytes :=
  le (e.contributor + 2 ^ 20 * b2n e.dup + 2 ^ 24 * e.offset + 2 ^ 57 * e.len) 8

/-- Writes an accumulate-order record (R552). -/
def State.writeOrder (s : State) (n : Nat) (r : OrderRec) (cut : Bool) : State :=
  let body := r.entries.flatMap OrderEntry.bytes
  s.proofRecord 3 none ((if r.cont then 2 else 0) + (if cut then 4 else 0))
    (le n 2 ++ zeros 2 ++ le r.bucket 4 ++ le r.first 4 ++ le r.step 2 ++ le r.entries.length 1)
    (padTo body ((body.length + 31) / 32 * 32))

/-- A record after it closes: what follows for the same pair continues it (R552). -/
def OrderRec.closed (r : OrderRec) : OrderRec :=
  { r with first := (r.first + r.entries.length) % 2 ^ 32, cont := true, entries := [] }

/-- Closes the open records of a station that satisfy a condition (R552). -/
def State.closeOrders (s : State) (n : Nat) (cut : Bool) (p : OrderRec → Bool) : State :=
  let sel (r : OrderRec) : Bool := !r.entries.isEmpty && p r
  let l := (s.station n).orders.filter sel
  let s := s.updStation n (fun m => { m with orders := m.orders.map (fun (r : OrderRec) => if sel r then r.closed else r) })
  s.forAll l (fun s r => s.writeOrder n r cut)

/-- Adds an entry to the record of its pair (R552). -/
def State.noteOrder (s : State) (n : Nat) (e : OrderEntry) : State :=
  if ¬ s.recording ∨ e.bucket = 0 then s
  else
    let s := s.closeOrders n false (fun r => decide (r.bucket = e.bucket ∧ r.step ≠ e.step))
    let mine (r : OrderRec) : Bool := decide (r.bucket = e.bucket ∧ r.step = e.step)
    let s := s.updStation n (fun m =>
      let l := if m.orders.any mine then m.orders
        else m.orders ++ [⟨e.bucket, e.step, 0, false, []⟩]
      { m with orders := l.map (fun (r : OrderRec) => if mine r then { r with entries := r.entries ++ [e] } else r) })
    s.closeOrders n false (fun r => mine r && decide (252 ≤ r.entries.length))

/-- An entry of an order list in memory (R556). -/
def orderOf (b : Bytes) : OrderEntry :=
  let w := bytesAt b 8 8
  { bucket := bytesAt b 0 4, step := bytesAt b 4 2, len := bits w 59 57, offset := bits w 56 24, dup := bit w 20,
    contributor := bits w 19 0 }

/-- What a descriptor of 64 bytes asks for: none when it is not valid, else the new replay state (R556). -/
def Station.replayOf (m : Station) (b : Bytes) : Option (Option Replay) :=
  let list := bytesAt b 16 8
  let k := bytesAt b 24 4
  if bytesAt b 0 4 ≠ 0x59414C50 then some none
  else if bytesAt b 4 1 > 63 ∨ !zeroAt b 5 3 ∨ bytesAt b 8 4 ≥ 2 ^ 24 ∨ bytesAt b 12 4 ≥ 2 ^ 24 ∨ !zeroAt b 28 36
      ∨ list % 32 ≠ 0 ∨ list < bufferBase ∨ 0x180C00000 < list + 16 * k ∨ k = 0 ∨ 65536 < k then none
  else
    let es := (List.range k).map (fun i => orderOf (m.mem.readN (list + 16 * i) 16))
    some (some ⟨bytesAt b 4 1, bytesAt b 8 4, bytesAt b 12 4, es.filter (fun e => !e.dup)⟩)

/-- Looks at the replay descriptor after a write of whole lines over it (R556, R562). -/
def Sta.lookReplay (x : Sta) (off k : Nat) : Sta :=
  if off ≤ 0x180BFF000 ∧ 0x180BFF020 ≤ off + 32 * k then
    let b := x.me.mem.readN 0x180BFF000 64
    match x.me.replayOf b with
    | none => x.upd (fun m => { m with unlisted := satAdd m.unlisted 1 32 })
    | some r =>
      if x.me.heldContribs.isEmpty then x.upd (fun m => { m with replay := r, replayNext := none })
      else x.upd (fun m => { m with replayNext := some r })
  else x

/-- Whether a contribution falls under ordered replay (R557). -/
def Replay.orders (r : Replay) (c : Contrib) : Bool :=
  decide (r.forme = c.forme ∧ r.first ≤ c.bucket ∧ c.bucket ≤ r.last)

/-- Whether a list entry is the one of a contribution (R557). -/
def OrderEntry.isFor (e : OrderEntry) (c : Contrib) : Bool :=
  decide (e.bucket = c.bucket ∧ e.step = c.step ∧ e.contributor = c.contributor ∧ e.offset = c.offset)

/-- Whether a contribution may be applied now: it is next in its bucket's list, or is unlisted and that list is exhausted
(R345). -/
def Replay.due (r : Replay) (c : Contrib) : Bool :=
  let l := r.list.filter (fun e => e.bucket == c.bucket)
  match l.head? with
  | none => true
  | some e => e.isFor c

/-! ### Accumulation (R326-R328) -/

/-- Lines that the combining area holds (R328). -/
abbrev combLines : Nat := 65536

/-- Keys that the idempotency record holds (R327). -/
abbrev idemKeys : Nat := 262144

/-- One contribution slot added in place. -/
def Sta.addInPlace (x : Sta) (fmt off : Nat) (v : Slot) : Sta :=
  let r := x.raw off
  r.2.put off (Slot.add fmt r.1 v)

/-- One contribution slot added into the combining area; the least recently used line is written back when the area is full,
and a line that holds a sum of another format is written back first (R328). -/
def Sta.addCombined (x : Sta) (fmt off : Nat) (v : Slot) : Sta :=
  let x := match x.me.heldSum off with
    | some c => if c.fmt = fmt then x else x.writeBack off
    | none => x
  let h := x.held off
  let x := h.2
  match h.1 with
  | some c =>
    x.upd (fun m => { m with
      comb := m.comb.filter (fun d => d.line != c.line) ++ [{ c with slot := Slot.add fmt c.slot v }]
      combined := satAdd m.combined 1 32 })
  | none =>
    let x := match x.me.comb.head? with
      | some c =>
        if x.me.comb.length < combLines then x
        else (x.writeBack (32 * c.line)).upd (fun m => { m with evictions := satAdd m.evictions 1 32 })
      | none => x
    x.upd (fun m => { m with comb := m.comb ++ [⟨off / 32, fmt, { v with lo := v.lo.read, hi := v.hi.read }⟩] })

/-- Contribution slots added from an offset (R326, R328). -/
def Sta.addSlots (x : Sta) (fmt off : Nat) : List Slot → Sta
  | [] => x
  | v :: t =>
    let x := if off < dramEnd then x.addCombined fmt off v else x.addInPlace fmt off v
    x.addSlots fmt (off + 32) t

/-- The key of a contribution. -/
def Contrib.key (c : Contrib) : IdemKey := ⟨c.bucket, c.step, c.contributor⟩

/-- Whether the key of a contribution is in the record. -/
def Station.hasKey (m : Station) (c : Contrib) : Bool := decide (c.bucket ≠ 0) && m.idem.contains c.key

/-- Removes the keys of a bucket whose step is neither the contribution's nor the one before it (R327). -/
def Station.pruned (m : Station) (c : Contrib) : Station :=
  { m with idem := m.idem.filter (fun k =>
      k.bucket != c.bucket || k.step == c.step % 65536 || k.step == (c.step + 65535) % 65536) }

/-- The order entry of a contribution; a host part of more than 8 slots gives the low bits of its length (log 36, DEDUCED). -/
def Contrib.order (c : Contrib) (dup : Bool) : OrderEntry :=
  ⟨c.bucket, c.step, (c.slots.length - 1) % 8, c.offset, dup, c.contributor⟩

/-- An ACCUM that is not held: not applied when its key is present or the record is full, else applied (R327). Answers the
status and whether DUP is set. -/
def Sta.accumulate (x : Sta) (c : Contrib) : Nat × Bool × Sta :=
  let x := if c.bucket = 0 then x else x.upd (·.pruned c)
  if x.me.hasKey c then
    let x := x.upd (fun m => { m with dup := satAdd m.dup 1 32 })
    (Config.ok, true, { x with s := x.s.noteOrder x.n (c.order true) })
  else if c.bucket ≠ 0 ∧ idemKeys ≤ x.me.idem.length then
    (Config.noSpace, false, x.upd (fun m => { m with nospace := satAdd m.nospace 1 32 }))
  else
    let x := if c.bucket = 0 then x else x.upd (fun m => { m with idem := m.idem ++ [c.key] })
    let r := x.consume c.slots
    let x := (r.2.addSlots c.fmt c.offset r.1).wrote (nearAddr x.n c.offset) c.writer
    (Config.ok, false, { x with s := x.s.noteOrder x.n (c.order false) })

/-- Bytes of contributions that a station may hold for ordered replay (R345). -/
abbrev heldBytes : Nat := 2 ^ 20

/-- The first codeword of the combining area as upsets name it: after the addressable buffer (log 100, DESIGN CHOICE). -/
abbrev combBase : Nat := 0x180C0000

/-- Bytes that a station holds. -/
def Station.holding (m : Station) : Nat := 32 * (m.heldContribs.map (fun c => c.slots.length)).foldl (· + ·) 0

/-- What becomes of an ACCUM: applied, held for its turn, or kept waiting because nothing more can be held. -/
inductive Taken where
  | applied (status : Nat) (dup : Bool) (x : Sta)
  | held (x : Sta)
  | waits

/-- Takes a contribution off the replay list when it is there, and counts it when it is not (R345, R556). -/
def Sta.tick (x : Sta) (c : Contrib) : Sta :=
  match x.me.replay with
  | none => x
  | some r =>
    match r.list.find? (fun e => e.isFor c) with
    | some e => x.upd (fun m => { m with replay := some { r with list := r.list.erase e } })
    | none => x.upd (fun m => { m with unlisted := satAdd m.unlisted 1 32 })

/-- An arriving contribution under ordered replay, or without it (R345, R557). -/
def Sta.takeContrib (x : Sta) (c : Contrib) : Taken :=
  match x.me.replay with
  | none => let r := x.accumulate c; .applied r.1 r.2.1 r.2.2
  | some p =>
    if ¬ p.orders c ∨ x.me.hasKey c then let r := x.accumulate c; .applied r.1 r.2.1 r.2.2
    else if p.due c ∧ ¬ x.me.heldContribs.any (fun d => p.due d && d.bucket == c.bucket) then
      let r := (x.tick c).accumulate c; .applied r.1 r.2.1 r.2.2
    else if heldBytes < x.me.holding + 32 * c.slots.length then .waits
    else .held (x.upd (fun m => { m with heldContribs := m.heldContribs ++ [c] }))

/-! ### Conversion (R330) -/

/-- A format that CONVERT accepts (R315). -/
def convertible (k : Nat) : Bool := decide (k ≤ 4 ∨ k = 8 ∨ k = 0xB)

/-- Converts elements: the results, and how many saturated and were flushed to zero (R144, R146, R330). -/
def convertElems (src dst : Nat) (r : Rnd) (l : List (Nat × Bool)) : List (Nat × Bool) × Nat × Nat :=
  let rs := l.map (fun e => (encodeNum dst (decodeNum src e.1) r, e.2))
  (rs.map (fun e => (e.1.1, e.2)), (rs.filter (fun e => e.1.2.sat && !e.2)).length,
    (rs.filter (fun e => e.1.2.ftz && !e.2)).length)

/-! ### Update recipes (R331-R334) -/

/-- A stream of a recipe (R331). -/
structure Stream where
  off : Nat
  fmt : Nat
  dir : Nat
deriving DecidableEq, Repr

/-- A recipe: count, streams by number, scalars and step words. -/
structure Recipe where
  count : Nat
  streams : List (Option Stream)
  scalars : List Nat
  steps : List Nat
deriving DecidableEq, Repr

/-- Bytes of a stream. -/
def Stream.bytes (t : Stream) (count : Nat) : Nat := (count * fmtStream t.fmt + 7) / 8

/-- Whether a stream is read, and whether it is written. -/
def Stream.reads (t : Stream) : Bool := t.dir.testBit 0
def Stream.writes (t : Stream) : Bool := t.dir.testBit 1

/-- Whether two streams share a byte. -/
def Stream.overlaps (a b : Stream) (count : Nat) : Bool :=
  decide (a.off < b.off + b.bytes count ∧ b.off < a.off + a.bytes count)

/-- Whether a step word is one of R333. -/
def stepOk (w : Nat) : Bool :=
  let op := bits w 31 28
  decide (1 ≤ op ∧ op ≤ 8) && decide (w % 256 = 0) && !bit w 27 && !bit w 23 && !bit w 19 && !bit w 15 && !bit w 11
    && decide ((op ≠ 6 ∧ op ≠ 8) ∨ bits w 10 8 < 4)

/-- The recipe in a record of 256 bytes, when every field of it is legal (R331, R333). -/
def recipeOf (b : Bytes) : Option Recipe :=
  let steps := bytesAt b 0 1
  let used := bytesAt b 1 1
  let count := bytesAt b 4 4
  let words := (List.range steps).map (fun i => bytesAt b (128 + 4 * i) 4)
  let st (i : Nat) : Option Stream :=
    let w := bytesAt b (8 + 8 * i) 8
    if used.testBit i then some ⟨bits w 32 0, bits w 39 36, bits w 41 40⟩ else none
  let ok (i : Nat) : Bool :=
    let w := bytesAt b (8 + 8 * i) 8
    !used.testBit i || decide (bits w 35 33 = 0 ∧ bits w 63 42 = 0 ∧ bits w 32 0 % 32 = 0 ∧ bits w 39 36 ≤ 4 ∧ bits w 41 40 ≠ 0)
  let ss := (List.range 4).map st
  let l := ss.filterMap id
  let outs := l.filter (·.writes)
  let clash := (List.range outs.length).any (fun i => (List.range i).any (fun j =>
      match outs[i]?, outs[j]? with
      | some a, some c => a.overlaps c count
      | _, _ => false))
    || (l.filter (fun t => !t.writes)).any (fun a => outs.any (fun c => a.overlaps c count))
  if 1 ≤ steps ∧ steps ≤ 16 ∧ used < 16 ∧ count ≠ 0 ∧ zeroAt b 2 2 ∧ zeroAt b 72 56 ∧ zeroAt b 192 64
      ∧ (List.range 4).all ok ∧ words.all stepOk ∧ ¬ clash then
    some ⟨count, ss, (List.range 8).map (fun i => bytesAt b (40 + 4 * i) 4), words⟩
  else none

/-- FP32 bits of an exact result. -/
def fp32 (x : Fval) : Nat := (encodeNum 0 x Rnd.rne).1

/-- One step on the registers (R333). -/
def recipeStep (k : List Nat) (r : List Nat) (w : Nat) : List Nat :=
  let n (i : Nat) : Fval := decodeNum 0 (r.getD i 0)
  let a := n (bits w 22 20)
  let b := n (bits w 18 16)
  let c := n (bits w 14 12)
  let sel := bits w 10 8
  let op := bits w 31 28
  let v := if op = 1 then fp32 ((a.mul b).1.add c).1
    else if op = 2 then fp32 (a.mul b).1
    else if op = 3 then fp32 (a.add b).1
    else if op = 4 then (vtrFn 3 (r.getD (bits w 22 20) 0)).1
    else if op = 5 then fp32 ((a.most b).least c)
    else if op = 6 then
      let zero := Fval.zero
      let holds := decide (a.cls ≠ 3) && (if sel = 0 then zero.lt a else if sel = 1 then !a.lt zero else if sel = 2 then a.lt zero
        else decide (a.cls ≤ 1))
      r.getD (if holds then bits w 18 16 else bits w 14 12) 0
    else if op = 7 then fp32 (a.mul (decodeNum 0 (k.getD sel 0))).1
    else fp32 (decodeNum (sel + 1) (encodeNum (sel + 1) a { Rnd.rne with ieee := false }).1)
  r.set (bits w 26 24) v

/-- The registers after the steps for one element (R332). -/
def recipeElem (p : Recipe) (ins : List Nat) : List Nat :=
  p.steps.foldl (recipeStep p.scalars) (ins ++ p.scalars.take 4)

/-- Whether a stored value is infinite or NaN. -/
def notFinite (fmt b : Nat) : Bool := decide (2 ≤ (decodeNum fmt b).cls)

/-- What an UPDATE stores: for each output stream its number, format and elements, with the counts of R334. -/
structure Updated where
  outs : List (Nat × Nat × List (Nat × Bool))
  sats : List (Nat × Nat)
  nonfinite : Nat

/-- The elements of each register after the recipe, with the poison of each index. -/
def recipeRun (p : Recipe) (ins : List (List (Nat × Bool))) : List (List Nat × Bool) :=
  (List.range p.count).map (fun i =>
    let e := ins.map (fun l => l.getD i (0, false))
    (recipeElem p (e.map (·.1)), e.any (·.2)))

/-- The outputs of a run (R332, R334). -/
def recipeOuts (p : Recipe) (rs : List (List Nat × Bool)) : Updated :=
  let l := (List.range 4).filterMap (fun i => match p.streams.getD i none with
    | some t => if t.writes then some (i, t) else none
    | none => none)
  let enc (i : Nat) (t : Stream) (r : List Nat × Bool) : Nat × NumEv :=
    encodeNum t.fmt (decodeNum 0 (r.1.getD i 0)) { Rnd.rne with ieee := false }
  { outs := l.map (fun x => (x.1, x.2.fmt, rs.map (fun r => ((enc x.1 x.2 r).1, r.2))))
    sats := l.map (fun x => (x.1, (rs.filter (fun r => (enc x.1 x.2 r).2.sat && !r.2)).length))
    nonfinite := (rs.filter (fun r => l.any (fun x => notFinite x.2.fmt (enc x.1 x.2 r).1))).length }

/-- The inputs of a recipe: decoded exactly to FP32, and +0 for streams that are not read (R332). -/
def Sta.recipeIns (x : Sta) (p : Recipe) : List (Option Stream) → List (List (Nat × Bool)) × Sta
  | [] => ([], x)
  | t :: rest =>
    let r := match t with
      | some t =>
        if t.reads then
          let e := x.elems (fmtStream t.fmt) t.off p.count
          (e.1.map (fun (v : Nat × Bool) => (fp32 (decodeNum t.fmt v.1), v.2)), e.2)
        else ([], x)
      | none => ([], x)
    let q := r.2.recipeIns p rest
    (r.1 :: q.1, q.2)

/-- Runs a recipe: reads its inputs, computes, and writes its outputs in ascending index (R332-R334). -/
def Sta.runRecipe (x : Sta) (p : Recipe) : Updated × Sta :=
  let i := x.recipeIns p p.streams
  let u := recipeOuts p (recipeRun p i.1)
  (u, u.outs.foldl (fun (x : Sta) o => match p.streams.getD o.1 none with
    | some t => x.storeElems (fmtStream t.fmt) t.off (o.2.2.length + 1) o.2.2
    | none => x) i.2)

/-- The accesses of a recipe beside its record. -/
def Recipe.accesses (p : Recipe) (n : Nat) : List Access :=
  (p.streams.filterMap id).map (fun t => ⟨nearAddr n t.off, t.bytes p.count, 2⟩)

/-- UPDATE of the recipe record at an address: a status, its counts, and what it stored (R331-R334). -/
def Sta.update (x : Sta) (f addr : Nat) : Nat × Option (Recipe × Updated) × Sta :=
  let c := if addr % 256 ≠ 0 then Config.badArg else x.s.access x.n f [⟨addr, 256, 2⟩]
  if c ≠ Config.ok then (c, none, x)
  else
    let r := x.lines (addr % 2 ^ 33) 8
    if anyPoison r.1 then (Config.faultCode, none, r.2)
    else
      match recipeOf (r.1.flatMap Slot.bytes) with
      | none => (Config.badArg, none, r.2)
      | some p =>
        let c := r.2.s.access x.n f (p.accesses x.n)
        if c ≠ Config.ok then (c, none, r.2)
        else
          let u := r.2.runRecipe p
          (Config.ok, some (p, u.1), u.2)

end Sys2Proof.Machine
end

