-- ==== Sys2Proof/Machine/Requests.lean ====
section
/-! DEFINITION. The commands of a memory station: the requests of R315 that wait in its queues, ordered replay, patrol scrub,
self-refresh and the closing of accumulate-order records. -/

namespace Sys2Proof.Machine

/-! ### Serving a request (R313, R316-R318, R325) -/

/-- What serving a request gives: its data, its status and the state; `none` for the answer when it waits. -/
structure Served where
  st : State
  answer : Option (List Slot × Status)

/-- The request that a station serves next: VC1 before VC0 (R318). -/
def Station.next (m : Station) : Option Msg :=
  match m.q1.head? with
  | some r => some r
  | none => m.q0.head?

/-- Takes a request off its queue; the host's requests outside come in (R309). -/
def Station.pop (m : Station) (r : Msg) : Station :=
  (if m.q1.isEmpty then { m with q0 := m.q0.tail } else { m with q1 := m.q1.erase r }).takeOutside

/-- One upset in a station: a codeword of the addressable buffer (3) or the near tier (4) by offset over 16, of the combining area, after
the buffer's addresses, by its line's place (log 100, DESIGN CHOICE), or a context entry (5) (R340, R510, R534). -/
def Station.upset (m : Station) (u : Upset) : Station :=
  if u.mem = 3 ∧ combBase ≤ u.ix then
    match m.comb[(u.ix - combBase) / 2]? with
    | some c => { m with comb := m.comb.set ((u.ix - combBase) / 2) { c with slot := c.slot.upset (u.ix % 2 == 1) u.bad } }
    | none => m
  else if u.mem = 3 ∨ u.mem = 4 then { m with ecc := Map.upd Cw.clean m.ecc u.ix (·.upset u.bad) }
  else if u.mem = 5 then { m with ctx := Map.upd Ctx.init m.ctx u.ix (fun e => { e with cw := e.cw.upset u.bad }) }
  else m

/-- The upsets that a step finds in a station. -/
def Station.upsets (m : Station) (l : List Upset) : Station := l.foldl Station.upset m

/-- A station's clock in MHz: its set value, lowered while an adjoining cluster coasts, and coasting itself without a reference
(R465, R466, R469). -/
def State.stationMHz (s : State) (n : Nat) : Nat :=
  let set := (s.field (n / 8)).stc
  if ¬ s.clocks.pinQualified then 1000 else if (s.station n).clockLow then min 1600 set else set

/-- Whether an adjoining island clock of a station breaks the ratio limit (R310, R467). -/
def State.ratioBroken (s : State) (n : Nat) : Bool :=
  let fd := s.field (n / 8)
  (stationClusters n).any (fun k =>
    let c := s.cluster k
    s.clusterPresent k && !fd.dark && decide (0 < c.ladder ∧ 2 * 100 * c.ladder < s.stationMHz n))

/-- What is left of a message whose crossing between a station and the fabric is undefined: nothing, the message as it was, or one whose
payload and descriptor, but for the op, hold any bits, with or without detection (R468; log 76, DESIGN CHOICE). -/
def State.cross (s : State) (n : Nat) (m : Msg) : Option Msg × State :=
  if s.ratioBroken n then
    let v (i : Nat) : Nat := Config.freeNat (s.free + i)
    let cw (i : Nat) : Cw := match v i % 4 with
      | 0 => .clean
      | 1 => .correctable
      | 2 => .uncorrectable
      | _ => .poison
    let l := (List.range m.slots.length).map (fun i =>
      ({ data := BitVec.ofNat 256 (v (2 + 3 * i)), lo := cw (3 + 3 * i), hi := cw (4 + 3 * i) } : Slot))
    let bad := { m with slots := l, opw := BitVec.ofNat 128 (v 1 / 256 * 256 + m.opw.toNat % 256) }
    (if v 0 % 3 = 0 then none else if v 0 % 3 = 1 then some m else some bad, { s with free := s.free + 2 + 3 * m.slots.length })
  else (some m, s)

/-- A message leaves a station for the fabric. -/
def State.leave (s : State) (n : Nat) (m : Msg) : State :=
  match s.cross n m with
  | (some m, t) => t.enter m
  | (none, t) => t

/-- The completion that a station's status gives a context command of the host (R430). -/
def State.stationCompl (s : State) (r st n addr off : Nat) : Compl :=
  if st = Config.badArg then Compl.badArg off
  else if st = Config.badState then s.badState r
  else if st = Config.absent then Compl.absentUnit 4 n
  else if st = Config.deniedCode then Compl.denied false addr
  else Compl.bare st

/-- The first address of a range that a forme's windows refuse (R285, R430). -/
def firstRefused (w : Map Window) (a right : Nat) : Nat :=
  (w.filter (fun e => e.2.admits a 1 right)).foldl (fun m e => max m (e.2.limit + 1)) a

/-- Whether a request comes from a host bay (R313, R319). -/
def Msg.fromHost (m : Msg) : Bool := decide (m.sy = 509)

/-- Completes the context command that a host bay's request serves (R319, R337, R338). -/
def State.answerHost (s : State) (n : Nat) (m : Msg) (st : Status) : State :=
  let r := m.forme
  let base := dAddr m.desc
  match (s.ring r).cmd m.tag with
  | none => s
  | some c =>
    if st.code = Config.ok then s.finish r c (Compl.okWith st.v1)
    else if dOp m.desc = 8 then
      s.finish r c (s.stationCompl r st.code n (firstRefused (s.forme r).near base 1) (if base % 32 ≠ 0 then 16 else 24))
    else
      let e := (s.station n).entry (bits (dArg m.desc) 9 0)
      s.finish r c (s.stationCompl r st.code n (firstRefused (s.forme r).near e.base 1) 16)

/-- Sends a response: the data slots of a READ or GATHER with GRP go to the group, and a failure has data of zeros
(R313, R316, R317, R262; log 25, DEDUCED). -/
def State.sendAnswer (s : State) (n : Nat) (m : Msg) (data : List Slot) (st : Status) : State :=
  let d := m.desc
  if m.fromHost then s.answerHost n m st
  else if st.code ≠ Config.ok then s.leave n (m.reply.msg MT.stationRsp n 511 (failData (replyLen 1 d)) st)
  else
    let st := { st with flags := st.flags + (if anyPoison data then 2 else 0) }
    if bit d 8 then
      let g := { Msg.mk0 MT.group m.vc m.forme 1 (if dOp d = 1 then bits (dArg d) 11 0 else bits (dArg d) 27 16) n 511 m.sport data with
                 tag := m.tag }
      let s := match s.gateOf m.forme m.src with
        | some c => s.comeIn c (gateInput c) g
        | none => s
      s.leave n (m.reply.msg MT.stationRsp n 511 [] st)
    else s.leave n (m.reply.msg MT.stationRsp n 511 data st)

/-- Whether a response belongs to the channel of a request. -/
def Answer.along (a : Answer) (m : Msg) : Bool := decide (a.msg.src = m.src ∧ a.msg.sport = m.sport ∧ a.msg.forme = m.forme)

/-- Answers a request; the response waits while an earlier one of its channel is not known (R318). -/
def State.respond (s : State) (n : Nat) (m : Msg) (data : List Slot) (st : Status) : State :=
  let s := if st.code = Config.deniedCode then s.updStation n (fun x => { x with denied := satAdd x.denied 1 32 }) else s
  if (s.station n).answers.any (fun a => a.along m) then
    s.updStation n (fun x => { x with answers := x.answers ++ [⟨m, some (data, st)⟩] })
  else s.sendAnswer n m data st

/-- The responses of a list that may leave, and those that wait behind one of their channel. -/
def readyAnswers : List Answer → List Answer → List Answer × List Answer
  | _, [] => ([], [])
  | shut, a :: t =>
    if a.body.isNone ∨ shut.any (fun b => b.along a.msg) then
      let r := readyAnswers (a :: shut) t
      (r.1, a :: r.2)
    else
      let r := readyAnswers shut t
      (a :: r.1, r.2)

/-- The answer to a held request becomes known, and what waited behind it leaves (R318, R345). -/
def State.answerLate (s : State) (n : Nat) (y : Reply) (st : Status) : State :=
  let l := (s.station n).answers
  let i := l.findIdx (fun a => a.body.isNone && a.msg.reply == y)
  let r := readyAnswers [] (match l[i]? with
    | some a => l.set i { a with body := some ([], st) }
    | none => l)
  (s.updStation n (fun x => { x with answers := r.2 })).forAll r.1 (fun s a => match a.body with
    | some b => s.sendAnswer n a.msg b.1 b.2
    | none => s)

/-- Whether a request's descriptor keeps to R314 and R315 whatever its op: a known op, its rsv fields, its virtual channel
(R325) and the slots that its header announces (R324). -/
def Msg.requestOk (m : Msg) : Bool :=
  let d := m.desc
  let op := dOp d
  decide (1 ≤ op ∧ op ≤ 0x0B) && decide (dAddr d < 2 ^ 42) && decide (m.len = m.slots.length)
    && decide (dFlags d = 0 ∨ (dFlags d = 1 ∧ (op = 1 ∨ op = 3))) && decide (m.vc = 0 ∨ 8 ≤ op)

/-- Serves the next request of a station when it is of operation `op`; a descriptor that is no request is refused by any of
them.  A parity error in the descriptor ends the request and the requesting forme (R511); across a broken clock ratio the request may
be lost or altered (R468). -/
def State.serve (s : State) (n op : Nat) (o : Obs) (act : Sta → Msg → Served) : Out :=
  match (s.station n).next with
  | none => .next s
  | some m =>
    if m.typ ≠ MT.stationOp then .next s
    else if dOp m.desc ≠ op ∧ m.requestOk ∧ s.stationPresent n ∧ ¬ s.nearTesting (n / 8) ∧ ¬ o.parity then .next s
    else
      let came := if m.fromHost then (some m, s) else s.cross n m
      let taken := came.2.updStation n (fun x => (x.pop m).upsets o.upsets)
      match came.1 with
      | none => .next taken
      | some m =>
        if o.parity then .next (taken.controlParity (some m.forme) 4 n)
        else if ¬ s.stationPresent n then .next (taken.respond n m [] (Status.of Config.absent))
        else if s.nearTesting (n / 8) then .next (taken.respond n m [] (Status.of Config.badState))
        else if ¬ m.requestOk then .next (taken.respond n m [] (Status.of Config.badArg))
        else
          let r := act ⟨taken, n, some m.forme, false⟩ m
          match r.answer with
          | none => .next r.st
          | some a => .next (r.st.respond n m a.1 a.2)

/-- A request that ends with a status alone. -/
def Sta.fails (x : Sta) (c : Nat) : Served := ⟨x.s, some ([], Status.of c)⟩

/-- A request that succeeds with data slots and values. -/
def Sta.gives (x : Sta) (data : List Slot) (st : Status) : Served :=
  ⟨x.s, some (data, { st with flags := st.flags + (if x.cor then 4 else 0) })⟩

/-- A request whose descriptor is in range and whose accesses are admitted (R315, R317). -/
def Sta.guard (x : Sta) (m : Msg) (ok : Bool) (l : List Access) (act : Unit → Served) : Served :=
  if ¬ ok then x.fails Config.badArg
  else
    let c := x.s.access x.n m.forme l
    if c ≠ Config.ok then x.fails c else act ()

/-- The offset of a request's address. -/
def Msg.off (m : Msg) : Nat := dAddr m.desc % 2 ^ 33

/-! ### READ, WRITE, GATHER and SCATTER -/

/-- STATION_READ (R315): data slots, with every sum held for them. -/
def serveRead (x : Sta) (m : Msg) : Served :=
  let d := m.desc
  let k := dLen d
  let ok := decide (1 ≤ k ∧ k ≤ 7 ∧ m.len = 0 ∧ dAddr d % 32 = 0 ∧ dArg d < (if bit d 8 then 4096 else 1))
  x.guard m ok [⟨dAddr d, 32 * k, 0⟩] (fun _ =>
    let r := x.lines m.off k
    r.2.gives r.1 (Status.of Config.ok))

/-- STATION_WRITE (R315): the payload codewords go to memory unchanged (R312, R339, R341, R556). -/
def serveWrite (x : Sta) (m : Msg) : Served :=
  let d := m.desc
  let k := dLen d
  let ok := decide (1 ≤ k ∧ k ≤ 8 ∧ m.len = k ∧ dAddr d % 32 = 0 ∧ dArg d = 0)
  x.guard m ok [⟨dAddr d, 32 * k, 1⟩] (fun _ =>
    let y := ((x.storeLines m.off m.slots).wrote (dAddr d) m.src).lookReplay m.off k
    { y with s := y.s.runData m.forme 0 (m.tag % 16) m.slots }.gives [] (Status.of Config.ok))

/-- Element size of a GATHER or SCATTER (R315). -/
def esize (d : Nat) : Nat := 2 ^ (bits (dArg d) 1 0 + 2)

/-- The addresses of the elements of a GATHER or SCATTER (R315). -/
def elemAddrs (d : Nat) (idx : List Slot) : List Nat :=
  ((idx.flatMap (fun v => (List.range 8).map (fun i => elemBits 32 v.data.toNat i))).take (dLen d)).map (fun i => dAddr d + i * esize d)

/-- Reads the bytes of one element with the poison of each byte (R318). -/
def Sta.element (x : Sta) (off size : Nat) : List (Byte × Bool) × Sta :=
  let r := x.line (off / 32 * 32)
  let l := (slotElems 8 r.1).map (fun e => (BitVec.ofNat 8 e.1, e.2))
  ((l.drop (off % 32)).take size, r.2)

/-- The elements at addresses, in order. -/
def Sta.gatherAll (x : Sta) (size : Nat) : List Nat → List (Byte × Bool) × Sta
  | [] => ([], x)
  | a :: t =>
    let r := x.element (a % 2 ^ 33) size
    let q := r.2.gatherAll size t
    (r.1 ++ q.1, q.2)

/-- Bytes with poison packed into slots; a codeword is poisoned when any of its bytes is. -/
def packSlots : Nat → List (Byte × Bool) → List Slot
  | 0, _ => []
  | k + 1, l =>
    if l.isEmpty then []
    else
      let e := l.take 32
      { slotOf (e.map (·.1)) with lo := Cw.ofPoison ((e.take 16).any (·.2)), hi := Cw.ofPoison ((e.drop 16).any (·.2)) }
        :: packSlots k (l.drop 32)

/-- GATHER (R315): indexed elements, packed in order; poisoned indices end the request with FAULT (log 33, DEDUCED). -/
def serveGather (x : Sta) (m : Msg) : Served :=
  let d := m.desc
  let k := dLen d
  let ok := decide (1 ≤ k ∧ k ≤ 56 ∧ k * esize d ≤ 224 ∧ dAddr d % esize d = 0 ∧ m.len = (k + 7) / 8
    ∧ bits (dArg d) 15 2 = 0 ∧ bits (dArg d) 31 28 = 0 ∧ (bit d 8 ∨ bits (dArg d) 27 16 = 0))
  let r := x.consume m.slots
  let l := elemAddrs d r.1
  if ok ∧ anyPoison r.1 then r.2.fails Config.faultCode
  else r.2.guard m ok (l.map (fun a => ⟨a, esize d, 0⟩)) (fun _ =>
    let g := r.2.gatherAll (esize d) l
    g.2.gives (packSlots 7 g.1) (Status.of Config.ok))

/-- Writes an element, a codeword at a time. -/
def Sta.putElement (x : Sta) (off : Nat) (b : List (Byte × Bool)) : Sta :=
  let lo := b.take 16
  let hi := b.drop 16
  let x := x.chunk off (lo.map (·.1)) (lo.any (·.2))
  if hi.isEmpty then x else x.chunk (off + 16) (hi.map (·.1)) (hi.any (·.2))

/-- Writes elements at addresses, in order. -/
def Sta.scatterAll (x : Sta) (size : Nat) : List Nat → List (Byte × Bool) → Sta
  | [], _ => x
  | a :: t, l => (x.putElement (a % 2 ^ 33) (l.take size)).scatterAll size t (l.drop size)

/-- SCATTER (R315): the data at indexed addresses; its first byte is that of its first element (R339; log 98, DEDUCED). -/
def serveScatter (x : Sta) (m : Msg) : Served :=
  let d := m.desc
  let k := dLen d
  let ok := decide (1 ≤ k ∧ k ≤ 8 ∧ k * esize d ≤ 192 ∧ dAddr d % esize d = 0 ∧ m.len = 1 + (k * esize d + 31) / 32
    ∧ bits (dArg d) 31 2 = 0)
  let r := x.consume m.slots
  let l := elemAddrs d (r.1.take 1)
  if ok ∧ anyPoison (r.1.take 1) then r.2.fails Config.faultCode
  else r.2.guard m ok (l.map (fun a => ⟨a, esize d, 1⟩)) (fun _ =>
    let data := (r.1.drop 1).flatMap (fun v => (slotElems 8 v).map (fun e => (BitVec.ofNat 8 e.1, e.2)))
    let y := (r.2.scatterAll (esize d) l data).wrote (l.headD (dAddr d)) m.src
    { y with s := y.s.runData m.forme 0 (m.tag % 16) (m.slots.drop 1) }.gives [] (Status.of Config.ok))

/-! ### ACCUM, CONVERT and UPDATE -/

/-- The contribution of a core's ACCUM (R327). -/
def Msg.contrib (m : Msg) : Contrib :=
  { forme := m.forme, bucket := bits (dArg m.desc) 23 0, step := m.tag, contributor := m.src, writer := m.src,
    fmt := bits (dArg m.desc) 25 24, offset := m.off, slots := m.slots, reply := some m.reply, part := none }

/-- ACCUM (R326-R328, R345): contributions added once for each key, or held for their turn; a request that cannot be held
stays in the queue. -/
def serveAccum (x : Sta) (m : Msg) : Served :=
  let d := m.desc
  let k := dLen d
  let ok := decide (1 ≤ k ∧ k ≤ 8 ∧ m.len = k ∧ dAddr d % 32 = 0 ∧ bits (dArg d) 25 24 ≠ 3 ∧ bits (dArg d) 31 26 = 0)
  x.guard m ok [⟨dAddr d, 32 * k, 2⟩] (fun _ =>
    match x.takeContrib m.contrib with
    | .applied c dup y =>
      let y := if c = Config.ok then { y with s := y.s.runData m.forme 1 (accFmt (bits (dArg d) 25 24)) m.slots } else y
      y.gives [] { Status.of c with flags := b2n dup }
    | .held y => ⟨(y.s.runData m.forme 1 (accFmt (bits (dArg d) 25 24)) m.slots).updStation x.n (fun z =>
        { z with answers := z.answers ++ [⟨m, none⟩] }), none⟩
    | .waits => ⟨x.s.updStation x.n (fun z => { z with q0 := m :: z.q0 }), none⟩)

/-- CONVERT (R330): elements of one format rewritten in another. -/
def serveConvert (x : Sta) (m : Msg) : Served :=
  let d := m.desc
  let a := dArg d
  let src := bits a 3 0
  let dst := bits a 7 4
  let r := x.consume m.slots
  let dest := bytesAt ((r.1.headD zeroSlot).bytes) 0 8
  let count := 32 * dLen d
  let sb := count * fmtStream src / 8
  let db := count * fmtStream dst / 8
  let apart := decide (dAddr d + sb ≤ dest ∨ dest + db ≤ dAddr d)
  let coded := decide (1 ≤ dLen d ∧ m.len = 1 ∧ convertible src ∧ convertible dst ∧ bits a 9 8 < 2 ∧ bits a 31 12 = 0)
  let ok := decide (dAddr d % 32 = 0 ∧ dest % 32 = 0 ∧ dest < 2 ^ 42 ∧ (apart ∨ (dAddr d = dest ∧ fmtStream src = fmtStream dst)))
  if !coded then x.fails Config.badArg
  else if anyPoison r.1 then r.2.fails Config.faultCode
  else r.2.guard m ok [⟨dAddr d, sb, 1⟩, ⟨dest, db, 1⟩] (fun _ =>
    let e := r.2.elems (fmtStream src) m.off count
    let c := convertElems src dst { mode := bits a 9 8, ieee := bit a 10, flush := bit a 11, u := 0 } e.1
    (e.2.storeElems (fmtStream dst) (dest % 2 ^ 33) (count + 1) c.1).gives []
      { Status.of Config.ok with v1 := count, v2 := c.2.1, v3 := c.2.2 })

/-- The status values of an UPDATE (R316, R334; the saturated stores stand in value3, log 34, DEDUCED). -/
def updateStatus (p : Recipe) (u : Updated) : Status :=
  { Status.of Config.ok with v1 := p.count, v2 := u.nonfinite, v3 := (u.sats.map (·.2)).foldl (· + ·) 0 }

/-- UPDATE (R331-R334). -/
def serveUpdate (x : Sta) (m : Msg) : Served :=
  let d := m.desc
  if m.len ≠ 0 ∨ dLen d ≠ 0 ∨ dArg d ≠ 0 then x.fails Config.badArg
  else
    let r := x.update m.forme (dAddr d)
    match r.2.1 with
    | some (p, u) => r.2.2.gives [] (updateStatus p u)
    | none => r.2.2.fails r.1

/-! ### Contexts and FLUSH (R328, R337, R338) -/

/-- CTX_ALLOC (R337). -/
def serveCtxAlloc (x : Sta) (m : Msg) : Served :=
  let d := m.desc
  let len := 32 * dArg d
  if ¬ x.s.phys.stacked then x.fails Config.absent
  else if dLen d ≠ 0 ∨ m.len ≠ 0 then x.fails Config.badArg
  else
    let r := x.readTable.ctxAlloc m.forme (dAddr d) len
    if r.1 ≠ Config.ok then r.2.2.fails r.1 else r.2.2.gives [] { Status.of Config.ok with v1 := r.2.1 }

/-- A request with a handle: its address is the station's first, its handle names an entry, and the right covers the region
(R338). -/
def serveHandle (x : Sta) (m : Msg) (right : Nat) (act : Sta → Nat → Ctx → Served) : Served :=
  let d := m.desc
  if ¬ x.s.phys.stacked then x.fails Config.absent
  else if dLen d ≠ 0 ∨ m.len ≠ 0 ∨ dAddr d ≠ nearAddr x.n 0 then x.fails Config.badArg
  else
    let u := x.readEntry (bits (dArg d) 9 0)
    let e := u.2.s.ctxEntry x.n m.forme (dArg d)
    if u.1 then u.2.fails Config.faultCode
    else if e.1 ≠ Config.ok then u.2.fails e.1
    else
      let c := u.2.me.entry e.2
      if ¬ u.2.s.nearAdmits m.forme c.base c.length right then u.2.fails Config.deniedCode
      else act u.2 e.2 c

/-- CTX_RESOLVE (R316, R338). -/
def serveCtxResolve (x : Sta) (m : Msg) : Served :=
  serveHandle x m 0 (fun x _ c =>
    x.gives [] { Status.of Config.ok with
      v1 := c.base
      v2 := c.length
      v3 := c.generation + 2 ^ 32 * (c.writer.getD 0) + 2 ^ 50 * c.forme + 2 ^ 56 })

/-- CTX_FREE (R338). -/
def serveCtxFree (x : Sta) (m : Msg) : Served :=
  serveHandle x m 1 (fun x i _ => (x.ctxFree i).gives [] (Status.of Config.ok))

/-- FLUSH (R328): every covered combining line is written back, and records of covered buckets close (R552). -/
def serveFlush (x : Sta) (m : Msg) : Served :=
  let d := m.desc
  let whole := decide (dLen d = 0)
  let size := if whole then (if x.s.phys.stacked then dramEnd else 0xC00000) else 65536 * dLen d
  let base := if whole then nearAddr (dAddr d / 2 ^ 33) (if x.s.phys.stacked then 0 else bufferBase) else dAddr d
  x.guard m (decide (dAddr d % 65536 = 0 ∧ dArg d = 0 ∧ m.len = 0)) [⟨base, size, 2⟩] (fun _ =>
    let off := base % 2 ^ 33
    let covered (a : Nat) : Bool := whole || decide (off ≤ a ∧ a < off + size)
    let l := (x.me.comb.map (fun c => 32 * c.line)).filter covered
    let y := l.foldl (fun (x : Sta) a => x.writeBack a) x
    { y with s := y.s.closeOrders y.n false (fun r => r.entries.any (fun e => covered e.offset)) }.gives [] (Status.of Config.ok))

def execStationRead (n : Nat) (o : Obs) (s : State) : Out := s.serve n 0x01 o serveRead
def execStationWrite (n : Nat) (o : Obs) (s : State) : Out := s.serve n 0x02 o serveWrite
def execGather (n : Nat) (o : Obs) (s : State) : Out := s.serve n 0x03 o serveGather
def execScatter (n : Nat) (o : Obs) (s : State) : Out := s.serve n 0x04 o serveScatter
def execAccum (n : Nat) (o : Obs) (s : State) : Out := s.serve n 0x05 o serveAccum
def execConvert (n : Nat) (o : Obs) (s : State) : Out := s.serve n 0x06 o serveConvert
def execStationUpdate (n : Nat) (o : Obs) (s : State) : Out := s.serve n 0x07 o serveUpdate
def execCtxAlloc (n : Nat) (o : Obs) (s : State) : Out := s.serve n 0x08 o serveCtxAlloc
def execCtxResolve (n : Nat) (o : Obs) (s : State) : Out := s.serve n 0x09 o serveCtxResolve
def execCtxFree (n : Nat) (o : Obs) (s : State) : Out := s.serve n 0x0A o serveCtxFree
def execFlush (n : Nat) (o : Obs) (s : State) : Out := s.serve n 0x0B o serveFlush

/-! ### What a station does by itself -/

/-- The answer to a contribution that was held (R345). -/
def State.answerHeld (s : State) (n : Nat) (c : Contrib) (st : Nat) (dup : Bool) : State :=
  let s := match c.reply with
    | some y => s.answerLate n y { Status.of st with flags := b2n dup }
    | none => s
  match c.part with
  | some p => s.finishPart p.ring p.sq p.part st
  | none => s

/-- A descriptor that waited takes effect when nothing is held any more (R562). -/
def Station.settleReplay (m : Station) : Station :=
  match m.replayNext with
  | some r => if m.heldContribs.isEmpty then { m with replay := r, replayNext := none } else m
  | none => m

/-- The held contribution that may be applied now: the first that is due, or any when replay has ended.  When the held ones
must go on without those that are missing (R282, R562), it is the first in list order (log 38, DEDUCED). -/
def Station.dueContrib (m : Station) (force : Bool) : Option Contrib :=
  match m.replay with
  | none => m.heldContribs.head?
  | some r =>
    match m.heldContribs.find? r.due with
    | some c => some c
    | none =>
      if force then
        match r.list.findSome? (fun e => m.heldContribs.find? e.isFor) with
        | some c => some c
        | none => m.heldContribs.head?
      else none

/-- Whether a station's held contributions no longer wait for missing ones: a new descriptor waits, or the replayed forme is
DRAINING. -/
def State.replayForced (s : State) (n : Nat) : Bool :=
  let m := s.station n
  m.replayNext.isSome || (match m.replay with
    | some r => decide ((s.forme r.forme).state = 6)
    | none => false)

/-- ORDERED_REPLAY_APPLY (R345): the next held contribution is applied. -/
def execOrderedReplayApply (n : Nat) (s : State) : Out :=
  .next (match (s.station n).dueContrib (s.replayForced n) with
    | none => s
    | some c =>
      let x : Sta := ⟨s.updStation n (fun m => { m with heldContribs := m.heldContribs.erase c }), n, some c.forme, false⟩
      let r := (x.tick c).accumulate c
      (r.2.2.s.updStation n (·.settleReplay)).answerHeld n c r.1 r.2.1)

/-- PATROL_SCRUB (R341): every codeword of the station's DRAM and buffer is read, the combining area with it, under CONTAINMENT_DEFAULT
(R309, R513). -/
def execPatrolScrub (n : Nat) (o : Obs) (s : State) : Out :=
  .next (if s.stationPresent n then
      let s := s.updStation n (fun m => m.upsets o.upsets)
      let x := ((s.station n).ecc.map (·.1)).foldl (fun (x : Sta) k => (x.cw k).2) ⟨s, n, none, false⟩
      (((s.station n).comb.map (·.line)).foldl (fun (x : Sta) k => (x.held (32 * k)).2) x).s
    else s)

/-- SELF_REFRESH_ENTRY (R342): the DRAM of a dark field's station enters self-refresh. -/
def execSelfRefreshEntry (n : Nat) (s : State) : Out :=
  .next (if s.phys.stacked ∧ s.stationPresent n ∧ (s.field (n / 8)).dark then s.updStation n (fun m => { m with selfRefresh := true })
    else s)

/-- ACCUM_ORDER_RECORD_CLOSE (R552): 2^16 sc after its first entry the open record of a bucket and step closes. -/
def execAccumOrderRecordClose (n bucket st : Nat) (s : State) : Out :=
  .next (s.closeOrders n false (fun r => decide (r.bucket = bucket ∧ r.step = st)))

end Sys2Proof.Machine
end

