-- ==== Sys2Proof/Machine/Transfers.lean ====
section
/-! DEFINITION. Split commands: part tables, the start of parts, what each part does, RESEND_PARTS, and the context commands
(R319-R321, R371-R382, R435-R437). -/

namespace Sys2Proof.Machine

/-! ### Part tables (R320, R435, R436) -/

/-- The host's bay in port digests (R551). -/
def State.hostUnit (s : State) (r : Nat) : Nat := 16 + (s.ring r).bayOf

/-- Checks that every command with a forme makes of a host range: none when it is admitted, else DENIED (R430, R435). -/
def State.hostRefused (s : State) (f a n right : Nat) : Option Compl :=
  if s.hostAdmits f a n right then none else some (Compl.denied true (firstRefused (s.forme f).host a right))

/-- Whether a near-tier range is a nonzero multiple of 32 bytes within one station (R312, R320). -/
def inOneStation (a len : Nat) : Bool :=
  decide (0 < len ∧ len % 32 = 0 ∧ a % 2 ^ 33 + len ≤ 2 ^ 33)

/-- The checks of a part's fields in ascending offset (R436). -/
def partChecks (op target : Nat) (b : Bytes) : List (Nat × Bool) :=
  let near (a : Nat) : Bool := decide (a % 32 ≠ 0 ∨ 2 ^ 42 ≤ a)
  if op = 0x1002 ∨ op = 0x1003 then
    [(0, decide (bytesAt b 0 8 % 32 ≠ 0)), (8, near (bytesAt b 8 8)),
      (16, !inOneStation (bytesAt b 8 8) (bytesAt b 16 8)), gap b 24 8]
  else if op = 0x1004 then
    [(0, decide (bytesAt b 0 1 > 15)), gap b 1 3, (4, decide (bytesAt b 4 4 = 0 ∨ 2 ^ 24 < bytesAt b 4 4)),
      (8, decide (2 ^ 48 ≤ bytesAt b 8 8)), gap b 24 8]
  else if op = 0x1008 then [(0, decide (2 ^ 42 ≤ bytesAt b 0 8)), gap b 8 24]
  else if target = 1 then
    [(0, decide (bytesAt b 0 1 > 2)), gap b 1 1, (4, decide (2 ^ 24 ≤ bytesAt b 4 4)),
      (8, !inOneStation (bytesAt b 24 8) (bytesAt b 8 8)), (24, near (bytesAt b 24 8))]
  else
    let src := bytesAt b 1 1
    [(0, decide (bytesAt b 0 1 > 15)), (1, decide (src > 1)), (4, decide (2 ^ 24 ≤ bytesAt b 4 4)),
      (8, decide (2 ^ 24 ≤ bytesAt b 8 4 ∨ (src = 1 ∧ bytesAt b 8 4 ≠ bytesAt b 4 4))), (12, decide (bytesAt b 12 1 > 2)),
      gap b 13 3, (16, decide (src = 1) && near (bytesAt b 16 8)),
      (24, if src = 0 then !zeroAt b 24 8 else !inOneStation (bytesAt b 16 8) (bytesAt b 24 8))]

/-- The first part of a table that offends, with its offset. -/
def badParts (op target : Nat) (l : List Bytes) : Option Compl :=
  ((List.range l.length).filterMap (fun i => match l[i]? with
    | some b => (firstBad (partChecks op target b)).map (fun off => Compl.badPart off i)
    | none => none)).head?

/-- A part that has not begun. -/
def Part.fresh (b : Bytes) : Part := { desc := b, done := none, progress := 0, frames := 0, sentAll := false, before := [] }

/-! ### Parts on feeder ports (R371, R372, R376, R381, R382) -/

/-- Why a part cannot start on its port (R381). -/
def State.portRefuses (s : State) (f p : Nat) : Option Nat :=
  let x := s.fport p
  if ¬ s.portPresent p then some Config.absent
  else if x.bound.map (·.forme) ≠ some f then some Config.badState
  else if (s.field (portField p)).dark then some Config.thermal
  else if x.link ≠ 3 ∧ ¬ x.hold then some Config.linkDown
  else none

/-- Starts a stream part: one READ_REQ from the first slot not injected (R371, R372, R382). -/
def State.startStream (s : State) (f : Nat) (q : PartRef) (x : Part) : State :=
  let route := bytesAt x.desc 16 8
  let len := bytesAt x.desc 4 4
  let addr := bytesAt x.desc 8 8 + 32 * x.progress
  let left := len - x.progress
  if ¬ routeOk route then s.endPart q Config.badArg
  else s.updFport x.port (fun p => p.openTxn
    { Txn.blank 1 f with part := some q, total := left, route := route } Ty.readReq (le addr 8 ++ le left 4 ++ le route 8) [])

/-- Reads a near-tier range for a forme: a status and the slots (R376). -/
def State.readNear (s : State) (f a len : Nat) : Nat × List Slot × State :=
  let n := a / 2 ^ 33
  let c := if 448 ≤ n then Config.badArg else s.access n f [⟨a, len, 0⟩]
  if c ≠ Config.ok then (c, [], s)
  else
    let r := (⟨s, n, some f, false⟩ : Sta).lines (a % 2 ^ 33) (len / 32)
    (Config.ok, r.1, r.2.s)

/-- Sends slots as GRAD_ACCUM frames of a part (R376). -/
def State.sendGrads (s : State) (f : Nat) (q : PartRef) (x : Part) (b : Binding) : Nat → List Slot → State
  | _, [] => s
  | at0, v :: t =>
    let st := s.stereoOf f x.first b
    let s := s.append x.port {
      grad := true, forme := f, session := b.session, bucket := x.first, step := x.step, fmt := x.fmt, contributor := st.1,
      copy := st.2, start := at0, slots := [v], replies := [], parts := [(q, 1)] }
    s.sendGrads f q x b (at0 + 1) t

/-- Starts a station-source accumulate part: the range is read and sent (R376). -/
def State.startStationGrad (s : State) (f : Nat) (c : Cmd) (q : PartRef) (x : Part) (b : Binding) : State :=
  let r := s.readNear f x.want (bytesAt x.desc 24 8)
  if r.1 ≠ Config.ok then r.2.2.endPart q r.1
  else
    let s := if c.prf then r.2.2.updFinger q.ring q.sq 2 0 (fingerFmt (accFmt x.fmt)) q.part (fun g => r.2.1.foldl Finger.addSlot g)
      else r.2.2
    ((s.sendGrads f q x b 0 r.2.1).updPart q (fun y => { y with sentAll := true })).settlePart q

/-- Starts a part that uses a feeder port. -/
def State.startPortPart (s : State) (f : Nat) (c : Cmd) (q : PartRef) (x : Part) : State :=
  match s.portRefuses f x.port, (s.fport x.port).bound with
  | some st, _ => s.endPart q st
  | none, none => s.endPart q Config.badState
  | none, some b =>
    if c.select = 0x1004 then s.startStream f q x
    else if x.source = 0 then s.settlePart q
    else s.startStationGrad f c q x b

/-- Opens the fingerprint of a part of a command with PROOF (R554). -/
def State.openFinger (s : State) (c : Cmd) (q : PartRef) (x : Part) : State :=
  if ¬ c.prf then s
  else if c.select = 0x1004 then s.updFinger q.ring q.sq 1 0 (fingerFmt (bytesAt x.desc 16 8 % 16)) q.part id
  else if c.select = 0x1007 then
    s.updFinger q.ring q.sq 2 0 (fingerFmt (accFmt (if bytesAt c.entry 25 1 = 1 then bytesAt x.desc 0 1 else x.fmt))) q.part id
  else if c.select = 0x1003 then s.updFinger q.ring q.sq 3 0 0xFF q.part id
  else s

/-- Whether a command's parts reach a station: LOAD_TENSOR, READ_TENSOR, UPDATE, ACCUMULATE_OUT with a near-tier target (R319), and the
station-source parts of ACCUMULATE_OUT (R376). -/
def Cmd.usesStation (c : Cmd) (x : Part) : Bool := !c.usesPorts || (decide (c.select = 0x1007) && decide (x.source ≠ 0))

/-- The station that such a part reaches (R436). -/
def Cmd.stationOf (c : Cmd) (x : Part) : Nat :=
  let off := if c.select = 0x1008 then 0 else if c.select ≠ 0x1007 then 8 else if c.usesPorts then 16 else 24
  bytesAt x.desc off 8 / 2 ^ 33

/-- Starts the unfinished parts of a command.  One that reaches a station takes its place behind the requests that wait there (R318,
R319), and does its work by itself. -/
def State.startParts (s : State) (r : Nat) (c : Cmd) : State :=
  s.forAll (List.range c.parts.length) (fun s i =>
    let q : PartRef := ⟨r, c.sq, i⟩
    match s.part q with
    | none => s
    | some x =>
      if x.done.isSome then s
      else
        let s := s.openFinger c q x
        if c.usesStation x then
          let s := s.updPart q (fun y => { y with before := (s.station (c.stationOf x)).q0 })
          if c.usesPorts ∧ ((s.station (c.stationOf x)).next.isNone ∨ (s.portRefuses r x.port).isSome) then s.startPortPart r c q x else s
        else s.startPortPart r c q x)

/-- Whether a part's turn has come at its station: nothing waits on VC1, and what stood before it has gone (R318, R319). -/
def State.partTurn (s : State) (c : Cmd) (x : Part) : Bool :=
  let m := s.station (c.stationOf x)
  m.q1.isEmpty && !m.q0.any x.before.contains

/-- Starts a split command: its table is checked, read and checked part by part (R320, R423, R435). -/
def State.startSplit (s : State) (r : Nat) (c : Cmd) : State :=
  let a := bytesAt c.entry 16 8
  let n := bytesAt c.entry 24 1
  let target := if c.opcode = 0x1007 then bytesAt c.entry 25 1 else 0
  if a % 32 ≠ 0 then s.finish r c (Compl.badArg 16)
  else if n = 0 ∨ 64 < n then s.finish r c (Compl.badArg 24)
  else
    match s.hostRefused r a (32 * n) 0 with
    | some k => s.finish r c k
    | none =>
      let s := s.portDigest (s.hostUnit r) 2 0xFF c.sq (some r) (s.hostSlots a n)
      let l := (List.range n).map (fun i => s.hostRead (a + 32 * i) 32)
      match badParts c.opcode target l with
      | some k => s.finish r c k
      | none =>
        let c := { c with parts := l.map Part.fresh, prf := s.proves c }
        (s.putCmd r c).startParts r c

def execLoadTensor (r : Nat) (s : State) : Out := .next (s.startRing r (opIs 0x1002) (fun s c => s.startSplit r c))
def execReadTensor (r : Nat) (s : State) : Out := .next (s.startRing r (opIs 0x1003) (fun s c => s.startSplit r c))
def execStreamLayer (r : Nat) (s : State) : Out := .next (s.startRing r (opIs 0x1004) (fun s c => s.startSplit r c))
def execAccumulateOut (r : Nat) (s : State) : Out := .next (s.startRing r (opIs 0x1007) (fun s c => s.startSplit r c))
def execUpdateCommand (r : Nat) (s : State) : Out := .next (s.startRing r (opIs 0x1008) (fun s c => s.startSplit r c))

/-! ### What a station part does (R319, R321) -/

/-- The last_writer of a host source (R319). -/
abbrev hostWriter : Nat := 0x3FFFF

/-- A part of LOAD_TENSOR: host memory to the near tier. -/
def State.loadPart (s : State) (r : Nat) (q : PartRef) (x : Part) : State :=
  let host := bytesAt x.desc 0 8
  let near := bytesAt x.desc 8 8
  let len := bytesAt x.desc 16 8
  let n := near / 2 ^ 33
  if ¬ s.hostAdmits r host len 0 then s.endPart q Config.deniedCode
  else
    let l := s.hostSlots host (len / 32)
    let s := s.portDigest (s.hostUnit r) 2 q.part q.sq (some r) l
    let c := if 448 ≤ n then Config.badArg else s.access n r [⟨near, len, 1⟩]
    if c ≠ Config.ok then s.endPart q c
    else
      let y : Sta := ⟨s, n, some r, false⟩
      (((y.storeLines (near % 2 ^ 33) l).wrote near hostWriter).lookReplay (near % 2 ^ 33) (len / 32)).s.endPart q Config.ok

/-- A part of READ_TENSOR: the near tier to host memory. -/
def State.readPart (s : State) (r : Nat) (c : Cmd) (q : PartRef) (x : Part) : State :=
  let host := bytesAt x.desc 0 8
  let len := bytesAt x.desc 16 8
  if ¬ s.hostAdmits r host len 1 then s.endPart q Config.deniedCode
  else
    let y := s.readNear r (bytesAt x.desc 8 8) len
    if y.1 ≠ Config.ok then y.2.2.endPart q y.1
    else
      let s := y.2.2.hostPutSlots host y.2.1
      let s := if c.prf then s.updFinger q.ring q.sq 3 0 0xFF q.part (fun g => y.2.1.foldl Finger.addSlot g) else s
      s.endPart q Config.ok

/-- A part of UPDATE: one recipe (R331), with a fingerprint of each output stream (R554). -/
def State.updatePart (s : State) (r : Nat) (c : Cmd) (q : PartRef) (x : Part) : State :=
  let near := bytesAt x.desc 0 8
  let n := near / 2 ^ 33
  if 448 ≤ n then s.endPart q Config.badArg
  else
    let u := (⟨s, n, some r, false⟩ : Sta).update r near
    match u.2.1 with
    | none => u.2.2.s.endPart q u.1
    | some (_, w) =>
      let s := if c.prf then u.2.2.s.forAll w.outs (fun s o =>
          s.updFinger q.ring q.sq 4 o.1 (fingerFmt o.2.1) q.part (fun g =>
            { o.2.2.foldl (fun (g : Finger) e => g.addElem e.1 e.2) g with
              saturated := ((w.sats.find? (fun e => e.1 == o.1)).map (·.2)).getD 0 }))
        else u.2.2.s
      s.endPart q Config.ok

/-- A part of ACCUMULATE_OUT with a near-tier target: host data added once under the part's key (R319, R327). -/
def State.addPart (s : State) (r : Nat) (c : Cmd) (q : PartRef) (x : Part) : State :=
  let fmt := bytesAt x.desc 0 1
  let len := bytesAt x.desc 8 8
  let host := bytesAt x.desc 16 8
  let near := bytesAt x.desc 24 8
  let n := near / 2 ^ 33
  if ¬ s.hostAdmits r host len 0 then s.endPart q Config.deniedCode
  else
    let l := s.hostSlots host (len / 32)
    let st := if 448 ≤ n then Config.badArg else s.access n r [⟨near, len, 2⟩]
    if st ≠ Config.ok then (s.portDigest (s.hostUnit r) 2 q.part q.sq (some r) l).endPart q st
    else
      let k : Contrib := {
        forme := r, bucket := bytesAt x.desc 4 4, step := bytesAt x.desc 2 2
        contributor := 0x80000 + 64 * (s.ring r).bayOf + q.part, writer := hostWriter, fmt := fmt, offset := near % 2 ^ 33
        slots := l, reply := none, part := some q }
      let done (s : State) : State :=
        let s := s.portDigest (s.hostUnit r) 2 q.part q.sq (some r) l
        if c.prf then s.updFinger q.ring q.sq 2 0 (fingerFmt (accFmt fmt)) q.part (fun g => l.foldl Finger.addSlot g) else s
      match (⟨s, n, some r, false⟩ : Sta).takeContrib k with
      | .applied code _ y => (done y.s).endPart q code
      | .held y => (done y.s).updPart q (fun z => { z with sentAll := true })
      | .waits => s

/-- PART_COMPLETION (R321): an unfinished part of a station command whose turn has come does its work and completes; while its ring's bay
has no link it fails with LINK_DOWN (R391), and host data stays outside while the proof recorder is full (R452).  Parts on feeder ports complete
with their frames. -/
def execPartCompletion (r sq part : Nat) (stores : List HostStore) (s : State) : Out :=
  .next (
    let s := s.hostStores stores
    let q : PartRef := ⟨r, sq, part⟩
    match (s.ring r).cmd sq, s.part q with
    | some c, some x =>
      if x.done.isSome ∨ x.sentAll ∨ ¬ c.usesStation x ∨ ¬ s.partTurn c x then s
      else if c.usesPorts then (if x.frames = 0 then s.startPortPart r c q x else s)
      else if ¬ s.ringLink r ∧ c.select ≠ 0x1008 then s.endPart q Config.linkDown
      else if s.proofFull ∧ (c.select = 0x1002 ∨ c.select = 0x1007) then s
      else if c.select = 0x1002 then s.loadPart r q x
      else if c.select = 0x1003 then s.readPart r c q x
      else if c.select = 0x1008 then s.updatePart r c q x
      else if c.select = 0x1007 then s.addPart r c q x
      else s
    | _, _ => s)

/-! ### RESEND_PARTS (R382, R437) -/

/-- A part of an earlier command as RESEND_PARTS takes it: a stream goes on where it stopped, any other part begins again; a
part that is not named counts as done. -/
def Part.resent (x : Part) (op : Nat) (named : Bool) : Part :=
  if named then { Part.fresh x.desc with progress := if op = 0x1004 then x.progress else 0 }
  else { x with desc := [], done := some Config.ok }

/-- Starts RESEND_PARTS. -/
def State.startResend (s : State) (r : Nat) (c : Cmd) : State :=
  match (s.ring r).partialOf (bytesAt c.entry 16 4) with
  | none => s.finish r c (Compl.badArg 16)
  | some p =>
    let mask := bytesAt c.entry 24 8
    let failed (i : Nat) : Bool := match p.parts[i]? with
      | some x => decide (x.done ≠ some Config.ok)
      | none => false
    if mask = 0 ∨ (maskList mask 64).any (fun i => !failed i) then s.finish r c (Compl.badArg 24)
    else
      let parts := (List.range p.parts.length).filterMap (fun i => (p.parts[i]?).map (fun (x : Part) => x.resent p.opcode (mask.testBit i)))
      let c := { c with parts := parts, select := p.opcode, orig := some p.root, entry := p.entry }
      (s.putCmd r c).startParts r c

def execResendParts (r : Nat) (s : State) : Out := .next (s.startRing r (opIs 0x100B) (fun s c => s.startResend r c))

/-! ### CONTEXT_ALLOC and CONTEXT_FREE (R319, R337, R338) -/

/-- The request that a host bay makes of a station for a context command, on VC1 (R319; log 101, DESIGN CHOICE). -/
def hostRequest (r n bay op addr arg : Nat) (c : Cmd) : Msg :=
  { Msg.mk0 MT.stationOp 1 r 2 n bay 509 0 [] with
    tag := c.sq, opw := BitVec.ofNat 128 (op + addr * 2 ^ 32 + arg * 2 ^ 96) }

/-- Whether a station has VC1 requests waiting, the host's outside among them. -/
def Station.busy1 (m : Station) : Bool := !(m.q1.isEmpty && m.outside.isEmpty)

/-- Puts a host bay's request behind those that wait at a station (R309, R318, R319). -/
def State.queueHost (s : State) (n : Nat) (m : Msg) : State :=
  s.updStation n (fun x => { x with outside := x.outside ++ [m] }.takeOutside)

/-- Starts CONTEXT_ALLOC. -/
def State.startCtxAlloc (s : State) (r : Nat) (c : Cmd) : State :=
  let base := bytesAt c.entry 16 8
  let len := bytesAt c.entry 24 8
  let n := base / 2 ^ 33
  if 448 ≤ n then s.finish r c (Compl.badArg 16)
  else if ¬ s.phys.stacked ∨ ¬ s.stationPresent n then s.finish r c (Compl.absentUnit 4 n)
  else if s.nearTesting (n / 8) then s.finish r c (s.badState r)
  else if len % 32 ≠ 0 then s.finish r c (Compl.badArg 24)
  else if (s.station n).busy1 then s.queueHost n (hostRequest r n (s.ring r).bayOf 8 base (len / 32) c)
  else
    let x := (⟨s, n, some r, false⟩ : Sta).readTable.ctxAlloc r base len
    let k := if x.1 = Config.ok then Compl.okWith x.2.1
      else x.2.2.s.stationCompl r x.1 n (firstRefused (s.forme r).near base 1) (if base % 32 ≠ 0 then 16 else 24)
    x.2.2.s.finish r c k

/-- Starts CONTEXT_FREE. -/
def State.startCtxFree (s : State) (r : Nat) (c : Cmd) : State :=
  let h := bytesAt c.entry 16 4
  let n := bits h 18 10
  if 448 ≤ n then s.finish r c (Compl.badArg 16)
  else if ¬ s.phys.stacked ∨ ¬ s.stationPresent n then s.finish r c (Compl.absentUnit 4 n)
  else if s.nearTesting (n / 8) then s.finish r c (s.badState r)
  else if (s.station n).busy1 then s.queueHost n (hostRequest r n (s.ring r).bayOf 10 (nearAddr n 0) h c)
  else
    let u := (⟨s, n, some r, false⟩ : Sta).readEntry (bits h 9 0)
    let s := u.2.s
    let e := s.ctxEntry n r h
    let x := (s.station n).entry e.2
    if u.1 then s.finish r c (Compl.bare Config.faultCode)
    else if e.1 ≠ Config.ok then s.finish r c (s.stationCompl r e.1 n x.base 16)
    else if ¬ s.nearAdmits r x.base x.length 1 then
      s.finish r c (Compl.denied false (firstRefused (s.forme r).near x.base 1))
    else ((⟨s, n, some r, false⟩ : Sta).ctxFree e.2).s.finish r c Compl.done

def execContextAlloc (r : Nat) (s : State) : Out := .next (s.startRing r (opIs 0x1009) (fun s c => s.startCtxAlloc r c))
def execContextFree (r : Nat) (s : State) : Out := .next (s.startRing r (opIs 0x100A) (fun s c => s.startCtxFree r c))

end Sys2Proof.Machine
end

