-- ==== Sys2Proof/Machine/Imposition.lean ====
section
/-! DEFINITION. Window records and the imposition image: every check of R283-R296 and the load (R48, R65, R210, R219, R225, R260,
R263, R279). -/

namespace Sys2Proof.Machine

/-- A reader of an image: the number of some bytes at an offset. -/
abbrev Rd := Nat → Nat → Nat

/-- Whether bytes of an image are all zero. -/
def Rd.zero (g : Rd) (off size : Nat) : Bool := decide (g off size = 0)

/-- What the checks of an image find: the offsets of BADARG faults, and the ABSENT faults with their offset, their place in
ascending y, then x, the unit kind and the unit. -/
structure Findings where
  bads : List Nat
  absents : List (Nat × Nat × Nat × Nat)

/-- Nothing found. -/
def Findings.clean : Findings := ⟨[], []⟩

/-- Findings of two parts of an image. -/
def Findings.and (a b : Findings) : Findings := ⟨a.bads ++ b.bads, a.absents ++ b.absents⟩

/-- The findings of a list of checks. -/
def Findings.ofChecks (l : List (Nat × Bool)) : Findings := ⟨(l.filter (·.2)).map (·.1), []⟩

/-- The findings of many parts. -/
def Findings.all (l : List Findings) : Findings := l.foldl Findings.and Findings.clean

/-! ### Windows (R48, R283, R284) -/

/-- The checks of a window record at an offset. -/
def windowChecks (g : Rd) (o : Nat) : List (Nat × Bool) :=
  let near := decide (g (o + 16) 1 = 0)
  [(o, near && decide (2 ^ 42 ≤ g o 8)),
    (o + 8, (near && decide (2 ^ 42 ≤ g (o + 8) 8)) || decide (g (o + 8) 8 < g o 8)),
    (o + 16, decide (1 < g (o + 16) 1)), (o + 17, decide (7 < g (o + 17) 1)), (o + 18, decide (16 ≤ g (o + 18) 1)),
    (o + 19, !g.zero (o + 19) 13)]

/-- The lowest absent station that a valid near-tier window covers (R48). -/
def State.windowAbsent (s : State) (g : Rd) (o : Nat) : Option Nat :=
  if g (o + 16) 1 = 0 ∧ (g (o + 18) 1).testBit 3 then
    (List.range 448).find? (fun n => decide (g o 8 / 2 ^ 33 ≤ n ∧ n ≤ g (o + 8) 8 / 2 ^ 33) && !s.stationPresent n)
  else none

/-- Puts a window record into a forme (R283). -/
def Forme.putWindow (f : Forme) (g : Rd) (o : Nat) : Forme :=
  let w : Window := ⟨g o 8, g (o + 8) 8, g (o + 18) 1⟩
  if g (o + 16) 1 = 0 then { f with near := Map.set Window.init f.near (g (o + 17) 1) w }
  else { f with host := Map.set Window.init f.host (g (o + 17) 1) w }

/-! ### The header and the directory (R289, R290) -/

/-- The checks of the header for a forme and a length (R289). -/
def headerChecks (g : Rd) (f : Forme) (len : Nat) : List (Nat × Bool) :=
  let kx := g 24 2
  let ky := g 26 2
  [(0, decide (g 0 4 ≠ 0x4F504D49)), (4, decide (g 4 2 ≠ 1)), (6, decide (g 6 2 < 2 ∨ 5 < g 6 2)),
    (8, decide (g 8 8 ≠ len ∨ len < 64)),
    (16, decide (g 16 2 ≠ f.cx0 ∨ g 18 2 ≠ f.cy0 ∨ g 20 2 ≠ f.cx1 ∨ g 22 2 ≠ f.cy1)),
    (24, decide (¬ (f.cx0 ≤ kx ∧ kx ≤ f.cx1 ∧ f.cy0 ≤ ky ∧ ky ≤ f.cy1))), (28, decide (2 ^ 20 ≤ g 28 4)),
    (34, decide (bits (g 34 1) 6 4 ≠ 0)), (35, decide (bits (g 35 1) 6 4 ≠ 0)), (36, decide (1 < g 36 1)),
    (37, !g.zero 37 3), (52, !g.zero 52 12)]

/-- A section: its kind, count and offset. -/
structure Section where
  kind : Nat
  count : Nat
  off : Nat

/-- A directory entry. -/
def dirEntry (g : Rd) (i : Nat) : Section := ⟨g (64 + 16 * i) 2, g (68 + 16 * i) 4, g (72 + 16 * i) 8⟩

/-- Bytes of an element of a section; router records vary (R290). -/
def elemSize (kind : Nat) : Nat := if kind = 1 then 1024 else if kind = 5 then 32 else if kind = 4 then 0 else 4

/-- The checks of a directory entry after those before it (R290). -/
def dirChecks (g : Rd) (len i : Nat) : List (Nat × Bool) :=
  let at0 := 64 + 16 * i
  let e := dirEntry g i
  [(at0, decide (len < at0 + 16 ∨ e.kind = 0 ∨ 5 < e.kind) || (List.range i).any (fun j => (dirEntry g j).kind == e.kind)),
    (at0 + 2, decide (g (at0 + 2) 2 ≠ 0)), (at0 + 4, decide ((e.kind = 3 ∧ e.count ≠ 16) ∨ (e.kind = 5 ∧ 16 < e.count))),
    (at0 + 8, decide (e.off % 64 ≠ 0 ∨ len < e.off + elemSize e.kind * e.count))]

/-- The sections of an image. -/
def sections (g : Rd) : List Section := (List.range (min (g 6 2) 5)).map (dirEntry g)

/-- A section of a kind; an absent one is empty. -/
def sectionOf (g : Rd) (kind : Nat) : Section := ((sections g).find? (fun e => e.kind == kind)).getD ⟨kind, 0, 0⟩

/-- The checks before the sections: the header, the directory and the required kinds. -/
def frontChecks (g : Rd) (f : Forme) (len : Nat) : List (Nat × Bool) :=
  headerChecks g f len ++ (List.range (min (g 6 2) 5)).flatMap (dirChecks g len)
    ++ [(6, !((sections g).any (fun e => e.kind == 1) && (sections g).any (fun e => e.kind == 3)))]

/-! ### Core records (R56, R65, R88, R210, R219, R225, R291-R293) -/

/-- The checks of a block table entry at an offset, for a program of some words (R56, R65). -/
def blockChecks (g : Rd) (o words : Nat) : List (Nat × Bool) :=
  [(o, decide (4096 ≤ g o 2 ∨ words ≤ g o 2)), (o + 6, decide (16 ≤ g (o + 6) 1)), (o + 7, decide (bits (g (o + 7) 1) 6 4 ≠ 0))]

/-- The steering word of a unit of a core record, when the unit is enabled at load. -/
def steerOn (g : Rd) (o u : Nat) : Option Nat := let w := g (o + 40 + 4 * u) 4; if bit w 0 then some w else none

/-- The galleys that a steering word reads, and the ports that it drives, as masks (R88, R120). -/
def steerGalleys (w : Nat) : Nat := 2 ^ bits w 7 4 ||| 2 ^ bits w 11 8
def steerPorts (w : Nat) : Nat := 2 ^ bits w 15 12 ||| 2 ^ bits w 19 16

/-- The galleys, and the ports, of the enabled units before unit `n` of a core record. -/
def steeredGalleys (g : Rd) (o n : Nat) : Nat := ((List.range n).filterMap (steerOn g o)).foldl (fun m w => m ||| steerGalleys w) 0
def steeredPorts (g : Rd) (o n : Nat) : Nat := ((List.range n).filterMap (steerOn g o)).foldl (fun m w => m ||| steerPorts w) 0

/-- The checks of the steering units of a core record (R65, R88, R120). -/
def steerChecks (g : Rd) (o : Nat) : List (Nat × Bool) :=
  (List.range 4).map (fun u =>
    let w := g (o + 40 + 4 * u) 4
    (o + 40 + 4 * u, decide (w / 2 ^ 20 ≠ 0 ∨ bits w 3 1 ≠ 0) || (bit w 0 && (decide (bits w 7 4 = bits w 11 8)
      || decide (steeredGalleys g o u &&& steerGalleys w ≠ 0) || decide (steeredPorts g o u &&& steerPorts w ≠ 0)))))
  ++ (List.range 64).flatMap (fun b =>
    let e := o + 64 + 8 * b
    [(e + 2, decide (g (e + 2) 2 &&& steeredGalleys g o 4 ≠ 0)), (e + 4, decide (g (e + 4) 2 &&& steeredPorts g o 4 ≠ 0))])

/-- The spill ranges of a core record: number, base and length (R293). -/
def spillRanges (g : Rd) (o : Nat) : List (Nat × Nat × Nat) :=
  ((List.range 4).map (fun k => (k, g (o + 896 + 8 * k) 4, g (o + 900 + 8 * k) 4))).filter (fun e => e.2.2 != 0)

/-- The checks of the spill ranges (R293, R296). -/
def spillChecks (g : Rd) (o : Nat) : List (Nat × Bool) :=
  let l := spillRanges g o
  l.flatMap (fun e =>
    [(o + 896 + 8 * e.1, decide (e.2.1 % 32 ≠ 0 ∨ 0x40000 < e.2.1 + e.2.2)
        || l.any (fun d => decide (d.1 < e.1 ∧ d.2.1 < e.2.1 + e.2.2 ∧ e.2.1 < d.2.1 + d.2.2))),
      (o + 900 + 8 * e.1, decide (e.2.2 % 32 ≠ 0))])

/-- The size codes of a galley plan entry, and the slots of its classes (R210, R234). -/
def geoCodes (geo : Nat) : List Nat := (List.range 4).map (fun c => bits geo (11 + 3 * c) (9 + 3 * c))
def geoSlots (geo k : Nat) : Nat := (((geoCodes geo).take k).map sizeCode).foldl (· + ·) 0

/-- Whether the classes of an entry agree with its size codes (R210). -/
def geoOk (geo k : Nat) : Bool :=
  (List.range 4).all (fun c => decide ((geoCodes geo).getD c 7 ≠ 7) == decide (c < k))

/-- The slot range of a galley plan entry in use: first slot and the slot past its last. -/
def galleyRange (g : Rd) (e : Nat) : Option (Nat × Nat) :=
  let cfg := g e 4
  let geo := g (e + 4) 4
  let k := bits cfg 5 4 + 1
  if bits cfg 1 0 = 1 ∨ bits cfg 1 0 = 2 then
    some (bits geo 8 0, bits geo 8 0 + (if geoOk geo k then geoSlots geo k else 0))
  else none

/-- The checks of galley plan entry `n` of a core record (R210, R219, R225, R233-R235, R292). -/
def galleyChecks (g : Rd) (o n : Nat) : List (Nat × Bool) :=
  let at0 (i : Nat) : Nat := o + 576 + 16 * i
  let e := at0 n
  let cfg := g e 4
  let geo := g (e + 4) 4
  let lst := g (e + 8) 4
  let spl := g (e + 12) 4
  let mode := bits cfg 1 0
  let k := bits cfg 5 4 + 1
  let expect := bits cfg 29 18
  let ok := geoOk geo k
  let size0 := sizeCode ((geoCodes geo).getD 0 7)
  let combs := ((List.range n).filter (fun i => bits (g (at0 i) 4) 1 0 == 2)).length
  let ranges := (List.range n).filterMap (fun i => galleyRange g (at0 i))
  let clash := match galleyRange g e with
    | some r => decide (512 < r.2) || ranges.any (fun d => decide (d.1 < r.2 ∧ r.1 < d.2))
    | none => false
  let a := bits spl 12 0 * 32
  let len := 2 ^ (bits spl 16 13 + 3) * 32
  let used := decide (mode = 1 ∨ mode = 2)
  [(e, decide (bits cfg 31 30 ≠ 0 ∨ bit cfg 15 ∨ bits cfg 7 6 ≠ 0 ∨ bit cfg 2 ∨ mode = 3 ∨ bits cfg 17 16 = 3)
      || (decide (mode = 1) && decide (expect ≠ 0))
      || (decide (mode = 2) && (decide (k ≠ 1 ∨ expect = 0 ∨ 2 ≤ combs) || (ok && decide (64 < size0 ∨ size0 % (bits cfg 14 12 + 1) ≠ 0))))
      || (used && bit cfg 3 && decide (mode ≠ 1 ∨ k ≠ 1 ∨ bits cfg 11 8 ≠ 0))),
    (e + 4, decide (geo / 2 ^ 21 ≠ 0) || (used && (!ok || clash))),
    (e + 8, decide (bits lst 30 16 ≠ 0)),
    (e + 12, decide (spl / 2 ^ 17 ≠ 0 ∨ 9 < bits spl 16 13) || (used && bit cfg 3
      && !(spillRanges g o).any (fun d => decide (d.2.1 ≤ a ∧ a + len ≤ d.2.1 + d.2.2))))]

/-- The core that a record names. -/
def recCore (g : Rd) (o : Nat) : Nat := coreAt (bits (g o 4) 8 0) (bits (g o 4) 17 9)

/-- The findings of core record `i` of a section (R48, R291, R296).  A nonzero reserved bit of a CS_ word inside the record is BADARG like
one of the record itself (R10, R107; log 97, DESIGN CHOICE). -/
def State.coreFindings (s : State) (g : Rd) (f : Nat) (e : Section) (i : Nat) : Findings :=
  let o := e.off + 1024 * i
  let c := recCore g o
  let words := g (o + 12) 2
  let sm := g (o + 16) 4
  let checks := [
    (o, decide (g o 4 / 2 ^ 18 ≠ 0) || !(s.forme f).covers c || (List.range i).any (fun j => recCore g (e.off + 1024 * j) == c)),
    (o + 8, decide ((sectionOf g 2).count < g (o + 8) 4 + words)), (o + 12, decide (words = 0 ∨ 4096 < words)),
    (o + 16, decide (64 ≤ sm ∨ bits sm 1 0 = 3 ∨ bits sm 3 2 = 3 ∨ bits sm 5 4 = 3)), (o + 56, !g.zero (o + 56) 8)]
    ++ (List.range 64).flatMap (fun b => blockChecks g (o + 64 + 8 * b) words) ++ steerChecks g o
    ++ (List.range 16).flatMap (galleyChecks g o)
    ++ (List.range 16).map (fun n => (o + 832 + 4 * n, decide (8 ≤ g (o + 832 + 4 * n) 4))) ++ spillChecks g o
    ++ [(o + 928, !g.zero (o + 928) 96)]
  (Findings.ofChecks checks).and ⟨[], if s.presentIn f c then [] else [(o, c, 1, c)]⟩

/-! ### Trees and router records (R250, R260, R263, R294, R295) -/

/-- The checks of the tree section (R294). -/
def treeChecks (g : Rd) (e : Section) : List (Nat × Bool) :=
  (List.range 16).map (fun i =>
    let w := g (e.off + 4 * i) 4
    (e.off + 4 * i, decide (w / 256 ≠ 0 ∨ bits w 3 2 ≠ 0)))

/-- Whether a direction is blocked in a forme's view alone (R250). -/
def State.viewBlocked (s : State) (f c d : Nat) : Bool :=
  s.linkDeadIn (s.hellbox.take (s.forme f).viewHb) c d || (match s.neighbour c d with
    | some n => !s.presentIn f n
    | none => true)

/-- The unit that a blocked output is reported under: the neighbour of the wafer's grid, or the router's own core at its
edge (log 37, DEDUCED). -/
def towards (c d : Nat) : Nat :=
  if d = 0 then (if coreY c = 0 then c else c - 512)
  else if d = 1 then (if coreX c = 511 then c else c + 1)
  else if d = 2 then (if coreY c = 447 then c else c + 512)
  else (if coreX c = 0 then c else c - 1)

/-- The checks of a router record's entries (R260, R263). -/
def entryChecks (g : Rd) (o mc rc : Nat) : List (Nat × Bool) :=
  let w (i : Nat) : Nat := g (o + 8 + 8 * i) 8
  (List.range mc).map (fun i =>
    let same (j : Nat) : Bool := bit (w j) 63 && bit (w j) 23 == bit (w i) 23
      && (if bit (w i) 23 then bits (w j) 27 24 == bits (w i) 27 24 else bits (w j) 11 0 == bits (w i) 11 0)
    (o + 8 + 8 * i, decide (bits (w i) 62 28 ≠ 0) || (bit (w i) 63 && (List.range i).any same)))
  ++ (List.range rc).map (fun k =>
    let i := mc + k
    let same (j : Nat) : Bool := bit (w j) 63 && bits (w j) 37 0 == bits (w i) 37 0
    (o + 8 + 8 * i, decide (bits (w i) 62 52 ≠ 0) || (bit (w i) 63 && (decide (bits (w i) 15 0 = 0 ∨ bits (w i) 51 44 = 0)
      || (List.range k).any (fun j => same (mc + j))))))

/-- The absent units of a router record: its own core, and the blocked outputs of its forward entries (R48). -/
def State.routerAbsent (s : State) (g : Rd) (f o mc rc : Nat) : List Nat :=
  let c := recCore g o
  let w (i : Nat) : Nat := g (o + 8 + 8 * i) 8
  (if mc + rc ≠ 0 ∧ ¬ s.presentIn f c then [c] else [])
    ++ (List.range mc).flatMap (fun i =>
      if bit (w i) 63 ∧ ¬ bit (w i) 23 then
        ((List.range 4).filter (fun d => (w i).testBit (12 + d) && s.viewBlocked f c d)).map (towards c)
      else [])

/-- The least of a list. -/
def leastOf (l : List Nat) : Option Nat := leastBy id l

/-- The findings of the router records from an offset, and the offset of each record (R295, R296). -/
def State.routerFindings (s : State) (g : Rd) (f len : Nat) (seen : List Nat) (o : Nat) : Nat → Findings
  | 0 => Findings.clean
  | n + 1 =>
    if len < o + 8 then ⟨[o], []⟩
    else
      let mc := g (o + 4) 1
      let rc := g (o + 5) 1
      let c := recCore g o
      let short := [(o, decide (g o 4 / 2 ^ 18 ≠ 0) || !(s.forme f).covers c || seen.contains c),
        (o + 4, decide (64 < mc ∨ len < o + 8 + 8 * mc)), (o + 5, decide (16 < rc ∨ len < o + 8 + 8 * (mc + rc))),
        (o + 6, decide (g (o + 6) 2 ≠ 0))]
      if short.any (·.2) then Findings.ofChecks short
      else
        let a := match leastOf (s.routerAbsent g f o mc rc) with
          | some u => [(o, u, 1, u)]
          | none => []
        ((Findings.ofChecks (entryChecks g o mc rc)).and ⟨[], a⟩).and
          (s.routerFindings g f len (c :: seen) (o + 8 + 8 * (mc + rc)) n)

/-! ### The verdict (R296) -/

/-- The findings of an image whose front is good. -/
def State.imageFindings (s : State) (g : Rd) (f len : Nat) : Findings :=
  let k := clusterAt (g 24 2) (g 26 2)
  let cores := sectionOf g 1
  let routers := sectionOf g 4
  let windows := sectionOf g 5
  Findings.all ([⟨[], if s.clusterPresentIn f k then [] else [(24, 0, 2, k)]⟩]
    ++ (List.range cores.count).map (s.coreFindings g f cores)
    ++ [Findings.ofChecks (treeChecks g (sectionOf g 3)), s.routerFindings g f len [] routers.off routers.count]
    ++ (List.range windows.count).map (fun i =>
      let o := windows.off + 32 * i
      (Findings.ofChecks (windowChecks g o)).and ⟨[], match s.windowAbsent g o with
        | some n => [(o, n, 4, n)]
        | none => []⟩))

/-- Whether an ABSENT finding comes before another: by offset, then by place. -/
def sooner (a b : Nat × Nat × Nat × Nat) : Bool := decide (a.1 < b.1 ∨ (a.1 = b.1 ∧ a.2.1 ≤ b.2.1))

/-- The earliest ABSENT finding. -/
def earliest : List (Nat × Nat × Nat × Nat) → Option (Nat × Nat × Nat × Nat)
  | [] => none
  | a :: t =>
    match earliest t with
    | some b => if sooner a b then some a else some b
    | none => some a

/-- The completion that findings give: any BADARG at the lowest offset, else any ABSENT (R296, R430). -/
def Findings.verdict (x : Findings) : Option Compl :=
  match leastOf x.bads with
  | some o => some { Compl.badArg 16 with value := o }
  | none =>
    match earliest x.absents with
    | some a => some (Compl.absentUnit a.2.2.1 a.2.2.2)
    | none => none

/-- The verdict on an image for a forme. -/
def State.judgeImage (s : State) (g : Rd) (f len : Nat) : Option Compl :=
  let front := Findings.ofChecks (frontChecks g (s.forme f) len)
  match front.verdict with
  | some k => some k
  | none => (s.imageFindings g f len).verdict

/-! ### The load (R279, R291-R295, R559) -/

/-- A block of a core record (R56). -/
def blockOf (g : Rd) (e : Nat) : Block :=
  { start := g e 2, inputs := g (e + 2) 2, sends := g (e + 4) 2, prio := bits (g (e + 6) 1) 1 0, replay := bit (g (e + 6) 1) 2,
    initEn := bit (g (e + 6) 1) 3, quoin := if bit (g (e + 7) 1) 7 then some (bits (g (e + 7) 1) 3 0) else none }

/-- A word of a record as a register. -/
def wordOf (g : Rd) (o : Nat) : Word := BitVec.ofNat 32 (g o 4)

/-- The block enables that the INIT bits of the blocks from `n` give (R113). -/
def initMask (bs : Map Block) (n : Nat) : Word :=
  BitVec.ofNat 32 (((List.range 32).filter (fun i => (Map.get Block.init bs (n + i)).initEn)).foldl setBit 0)

/-- A core's block enables set from the INIT bits of its blocks (R113, R297). -/
def Core.initEnables (x : Core) : Core := { x with en0 := initMask x.blocks 0, en1 := initMask x.blocks 32 }

/-- A core loaded from its record, after its reset (R291-R293). -/
def Core.load (x : Core) (g : Rd) (o : Nat) (text : List Word) (poisoned : List Nat) : Core :=
  let blocks := (List.range 64).foldl (fun (m : Map Block) b => Map.set Block.init m b (blockOf g (o + 64 + 8 * b))) []
  let galleys := (List.range 16).foldl (fun (m : Map Galley) n =>
    let e := o + 576 + 16 * n
    Map.set Galley.init m n { Galley.init with cfg := wordOf g e, geo := wordOf g (e + 4), lst := wordOf g (e + 8), spl := wordOf g (e + 12) }) []
  Core.initEnables { x.afterReset with
    counted := x.counted
    st := .sleep
    rank := g (o + 4) 2
    trees := g (o + 6) 2
    extGalleys := g (o + 14) 2
    sliceMode := wordOf g (o + 16)
    rng := wordOf g (o + 20)
    scratch := (List.range 4).foldl (fun (m : Map Word) i => Map.set 0 m i (wordOf g (o + 24 + 4 * i))) []
    steers := (List.range 4).foldl (fun (m : Map Steer) u => Map.set Steer.init m u { Steer.init with cfg := wordOf g (o + 40 + 4 * u) }) []
    blocks := blocks
    galleys := galleys
    ports := (List.range 16).foldl (fun (m : Map Port) n => Map.set Port.init m n { Port.init with cfg := wordOf g (o + 832 + 4 * n) }) []
    spill := (spillRanges g o).map (fun e => e.2)
    istore := (List.range text.length).foldl (fun (m : Map Word) i => Map.set 0 m i (text.getD i 0)) []
    iecc := poisoned.foldl (fun (m : Map Cw) i => Map.set Cw.clean m i .poison) [] }

/-- The instruction words of a record (R291). -/
def recText (g : Rd) (o : Nat) : List Word :=
  (List.range (g (o + 12) 2)).map (fun i => wordOf g ((sectionOf g 2).off + 4 * (g (o + 8) 4 + i)))

/-- The instruction-store codewords whose words came from poisoned lines of host memory (R390). -/
def State.textPoison (s : State) (g : Rd) (a o : Nat) : List Nat :=
  ((List.range (g (o + 12) 2)).filter (fun i =>
    s.hostPoison.contains ((a + (sectionOf g 2).off + 4 * (g (o + 8) 4 + i)) / 64))).map (· / 4)

/-- Loads the core records of an image at address `a`. -/
def State.loadCores (s : State) (g : Rd) (a : Nat) : State :=
  let e := sectionOf g 1
  s.forAll (List.range e.count) (fun s i =>
    let o := e.off + 1024 * i
    let poisoned := s.textPoison g a o
    s.updCore (recCore g o) (fun x => x.load g o (recText g o) poisoned))

/-- Loads the router records from an offset. -/
def State.loadRouters (s : State) (g : Rd) (o : Nat) : Nat → State
  | 0 => s
  | n + 1 =>
    let mc := g (o + 4) 1
    let rc := g (o + 5) 1
    let w (i : Nat) : BitVec 64 := BitVec.ofNat 64 (g (o + 8 + 8 * i) 8)
    let s := s.updRouter (recCore g o) (fun r => { r with
      mcast := (List.range mc).map w, reduce := (List.range rc).map (fun i => w (mc + i)) })
    s.loadRouters g (o + 8 + 8 * (mc + rc)) n

/-- The trees of an image (R294), with their release counters at zero (R296). -/
def imageTrees (g : Rd) : Map Tree :=
  (List.range 16).foldl (fun (m : Map Tree) i =>
    let w := g ((sectionOf g 3).off + 4 * i) 4
    Map.set Tree.init m i { Tree.init with isOr := bit w 0, external := bit w 1, port := bits w 7 4 }) []

/-- A named tree of the header. -/
def namedTree (b : Nat) : Option Nat := if bit b 7 then some (bits b 3 0) else none

/-- What an image gives a forme (R279, R289). -/
def Forme.load (x : Forme) (g : Rd) : Forme :=
  let x := (List.range (sectionOf g 5).count).foldl (fun (x : Forme) i => x.putWindow g ((sectionOf g 5).off + 32 * i)) x
  { x with
    state := 2, keeper := clusterAt (g 24 2) (g 26 2), patience := g 28 4, watch := g 32 2, halt := namedTree (g 34 1)
    layer := namedTree (g 35 1), suspect := g 36 1, censusAddr := g 40 8, censusCap := g 48 4, halting := false
    trees := imageTrees g }

/-- Loads a good image: every present core of the forme is reset first (R279), and every table of its routers replaced. -/
def State.loadImage (s : State) (g : Rd) (f a : Nat) : State :=
  let s := s.forAll (s.formeCores f) (fun s c =>
    ((s.updCore c (fun x => { x.afterReset with counted := (s.forme f).countedNow })).updRouter c (fun r =>
      { r with mcast := [], reduce := [] })).dropAssemblies (fun a => a.core == c))
  let s := (s.loadCores g a).loadRouters g (sectionOf g 4).off (sectionOf g 4).count
  s.updForme f (·.load g)

/-- Starts LOAD_IMPOSITION (R288, R296): DENIED before the image is read, then the verdict on it. -/
def State.startImposition (s : State) (r : Nat) (c : Cmd) : State :=
  let a := bytesAt c.entry 16 8
  let len := bytesAt c.entry 24 8
  match s.hostRefused r a len 0 with
  | some k => s.finish r c k
  | none =>
    let g : Rd := fun off n => s.hostNat (a + off) n
    let s1 := s.portDigest (s.hostUnit r) 2 0xFF c.sq (some r) (s.hostSlots a ((len + 31) / 32))
    match s.judgeImage g r len with
    | some k => s1.finish r c k
    | none => (s1.loadImage g r a).finish r c (Compl.okWith (s.forme r).mapGen)

def execLoadImposition (r : Nat) (s : State) : Out := .next (s.startRing r (opIs 0x1001) (fun s c => s.startImposition r c))

/-- The record of an OPEN_WINDOW entry. -/
def entryReader (b : Bytes) : Rd := fun off n => bytesAt b off n

/-- Starts OPEN_WINDOW (R48, R283, R284). -/
def State.startWindow (s : State) (r : Nat) (c : Cmd) : State :=
  let g := entryReader c.entry
  let f := bytesAt c.entry 16 1
  match firstBad (windowChecks g 24), s.windowAbsent g 24 with
  | some o, _ => s.finish r c (Compl.badArg o)
  | none, some n => s.finish r c (Compl.absentUnit 4 n)
  | none, none => (s.updForme f (fun x => x.putWindow g 24)).finish r c Compl.done

def execOpenWindow (r : Nat) (s : State) : Out := .next (s.startRing r (opIs 0x0008) (fun s c => s.startWindow r c))

end Sys2Proof.Machine
end

