-- ==== Sys2Proof/Machine/FormeCommands.lean ====
section
/-! DEFINITION. The commands that open, bind, run, reset and close a forme, set clocks, start tests, order and mark
(R276-R282, R297-R300, R365-R367, R426, R443, R466, R470, R503-R506). -/

namespace Sys2Proof.Machine

/-! ### Opening a forme (R48, R252, R257, R276, R277) -/

/-- The rectangle that OPEN_FORME names. -/
def Cmd.rect (c : Cmd) : Nat × Nat × Nat × Nat :=
  (bytesAt c.entry 24 2, bytesAt c.entry 26 2, bytesAt c.entry 28 2, bytesAt c.entry 30 2)

/-- Whether a rectangle lies on the wafer with its corners in order (R276). -/
def rectOk (q : Nat × Nat × Nat × Nat) : Bool := decide (q.1 ≤ q.2.2.1 ∧ q.2.2.1 < 128 ∧ q.2.1 ≤ q.2.2.2 ∧ q.2.2.2 < 112)

/-- The lowest forme that is not EMPTY and holds a cluster of a list, clusters of disabled fields apart (R276). -/
def State.holderOf (s : State) (l : List Nat) : Option Nat :=
  let used := l.filter (fun k => s.fieldEnabled (clusterField k))
  (s.formes.find? (fun e => decide (e.2.state ≠ 0) && e.2.clusters.any (fun k => used.contains k))).map (·.1)

/-- The forme's record as OPEN_FORME makes it: its containment mode and its view of absence (R49, R405). -/
def State.openedForme (s : State) (c : Cmd) : Forme :=
  let q := c.rect
  let m := bytesAt c.entry 17 1
  { Forme.init with
    state := 1, resets := if m = 0 then s.regs.resetDefault else decide (m = 2), mapGen := s.mapGen, viewHb := s.hellbox.length
    viewFields := ((List.range 56).filter s.fieldPresent).foldl setBit 0, cx0 := q.1, cy0 := q.2.1, cx1 := q.2.2.1
    cy1 := q.2.2.2 }

/-- The state in which a forme's view of absence and column shifts are fixed, before anything else (R26, R49). -/
def State.viewed (s : State) (f : Nat) (c : Cmd) : State := (s.recompute f).setForme f (s.openedForme c)

/-- What OPEN_FORME refuses once the view is known (R48, R252, R257), in that order of precedence: no present cluster, no present
core in a gate column, and cores that no detours join. -/
def State.viewRefused (t : State) (f : Nat) : Option Compl :=
  let x := t.forme f
  if ¬ x.clusters.any (t.clusterPresentIn f) then some (Compl.absentUnit 2 (clusterAt x.cx0 x.cy0))
  else if ¬ x.gateCores.any (t.presentIn f) then some (Compl.badArg 24)
  else (t.unjoined f).map (Compl.absentUnit 1)

/-- A cluster of a forme that opens: it holds the forme, and takes its record of the leading plan (R277, R433). -/
def Cluster.join (x : Cluster) (f : Nat) (p : Lead) : Cluster := { x with forme := some f, formeStep := 33, voff := p.voff, cap := p.cap }

/-- A core of a forme that opens: reset, its stores zero (R277). -/
def Core.fresh (f gen : Nat) : Core := { Core.init with forme := f, mapGen := gen }

/-- The effects of OPEN_FORME on a state whose view is fixed (R277). -/
def State.openForme (t : State) (f : Nat) : State :=
  let x := t.forme f
  let t := t.forAll (t.formeCores f) (fun s c => (s.setCore c (Core.fresh f x.mapGen)).dropAssemblies (fun a => a.core == c))
  let t := t.forAll (x.clusters.filter (t.clusterPresentIn f)) (fun s k =>
    s.updCluster k (fun y => y.join f (Map.get Lead.init s.plan.clusters k)))
  (t.installDetours f).settleDark allFields

/-- Starts OPEN_FORME. -/
def State.startOpen (s : State) (r : Nat) (c : Cmd) : State :=
  let f := bytesAt c.entry 16 1
  let q := c.rect
  if ¬ rectOk q then s.finish r c (Compl.badArg 24)
  else
    let l := rectClusters q.1 q.2.1 q.2.2.1 q.2.2.2
    match s.holderOf l with
    | some h => s.finish r c (s.badState h)
    | none =>
      if l.any (fun k => decide ((s.field (clusterField k)).testing ≠ 0)) then s.finish r c (s.badState f)
      else
        let t := s.viewed f c
        match t.viewRefused f with
        | some k => s.finish r c k
        | none => (t.openForme f).finish r c Compl.done

/-- OPEN_FORME (R277). -/
def execOpenForme (r : Nat) (s : State) : Out := .next (s.startRing r (opIs 0x0003) (fun s c => s.startOpen r c))

/-! ### Draining (R279, R282, R438) -/

/-- The WSP transactions of a forme on a port end with ABORTED: those already sent are cancelled with CANCEL, the others are
withdrawn; the forme's open frames and waiting requests go with them (R282 step 2). -/
def State.cancelTxns (s : State) (f p : Nat) : State :=
  let mine := (s.fport p).txns.filter (fun t => t.forme == f)
  let s := s.forAll mine (fun s t =>
    if t.cancelled then s.updFport p (·.dropTxn t.req)
    else (s.failTxn p { t with replies := [] } Config.aborted).updFport p (fun x =>
      if t.seq.isSome then x.cancelRange t.req t.req
      else { x with waiting := x.waiting.filter (fun w => w.txn != t.req) }))
  s.updFport p (fun x => { x with
    ops := x.ops.filter (fun m => m.forme != f)
    openWrite := x.openWrite.filter (fun o => o.forme != f)
    openGrad := x.openGrad.filter (fun o => o.forme != f) })

/-- The queued requests of a forme leave a station, its reads among them; what has started completes (R282 step 3, R346; log 99, DEDUCED). -/
def Station.dropQueued (x : Station) (f : Nat) : Station :=
  let stays (m : Msg) : Bool := m.forme != f
  { x with q0 := x.q0.filter stays, q1 := x.q1.filter stays, outside := x.outside.filter stays }.takeOutside

/-- A core that stops where it is (R282 step 1). -/
def Core.quiet (x : Core) : Core :=
  match x.st with
  | .empty => x
  | _ => { x with st := .stopped }

/-- A forme enters DRAINING (R282 steps 1-3, R307, R438): its commands end, its cores stop, its transactions are cancelled, its queued
requests discarded, and a field that waited for its layer quoin goes dark. -/
def State.startDrain (s : State) (f : Nat) (close : Bool) : State :=
  let running := decide ((s.forme f).state = 3)
  let s := (s.agePatience f).endSegment f true
  let s := s.updForme f (fun x =>
    let y := { x with state := 6, closing := close, halting := false }
    if running then { y with status := Config.aborted, faultClass := 0, faultCore := none, faultCode := 0 } else y)
  let s := s.endCommands f (Compl.bare Config.aborted)
  let s := s.forAll (s.formeCores f) (fun s c => s.updCore c Core.quiet)
  let s := s.forAll (List.range 16) (fun s p => s.cancelTxns f p)
  let s := { s with stations := s.stations.map (fun (e : Nat × Station) => (e.1, e.2.dropQueued f)) }
  (s.dropAssemblies (fun a => a.forme == f)).settleDark allFields

/-- CLOSE_FORME (R282): the command completes when draining ends. -/
def execCloseForme (r : Nat) (s : State) : Out :=
  .next (s.startRing r (opIs 0x0004) (fun s c => s.startDrain (bytesAt c.entry 16 1) true))

/-- RESET_FORME (R282): the command completes when draining ends. -/
def execResetForme (r : Nat) (s : State) : Out :=
  .next (s.startRing r (opIs 0x0005) (fun s c => s.startDrain (bytesAt c.entry 16 1) false))

/-! ### Resetting cores and clusters (R505, R506) -/

/-- The CLOSE messages of a core that is reset: to each sender that its galleys had accepted, and to the reader of each of its OPEN
ports. -/
def Core.resetCloses (x : Core) (c : Nat) : List Msg :=
  x.galleys.flatMap (fun (e : Nat × Galley) => e.2.chans.map (fun h => closeMsgTo x.forme c h.src h.port true))
    ++ (x.ports.filter (fun e => e.2.state == PortSt.openSt)).map (fun (e : Nat × Port) =>
      { closeMsgTo x.forme c e.2.dest e.1 false with dkind := e.2.dkind })

/-- A core reset (R106, R505): its closes are sent, it is EMPTY, and its arrivals and report assemblies are gone. -/
def State.resetCore (s : State) (c : Nat) : State :=
  let msgs := (s.core c).resetCloses c
  let f := (s.formeOf c).getD 64
  let s := s.updCore c (fun x => { x.afterReset with counted := (s.forme f).countedNow })
  let s := s.forAll msgs (fun s m => s.arrive c 4 m)
  let s := s.dropAssemblies (fun a => a.core == c)
  if f < 64 then
    s.updForme f (fun x => { x with trees := x.trees.map (fun (e : Nat × Tree) => (e.1, { e.2 with arrived := e.2.arrived.filter (fun a => a != c) })) })
  else s

/-- Whether a core is present for a reset: in its forme's view, or in the absence map outside a forme (log 40, DEDUCED). -/
def State.presentHere (s : State) (c : Nat) : Bool :=
  match s.formeOf c with
  | some f => s.presentIn f c && !s.died c
  | none => s.present c

/-- Starts RESET_CLUSTER. -/
def State.startResetCluster (s : State) (r : Nat) (c : Cmd) : State :=
  let cx := bytesAt c.entry 16 2
  let cy := bytesAt c.entry 18 2
  if 127 < cx then s.finish r c (Compl.badArg 16)
  else if 111 < cy then s.finish r c (Compl.badArg 18)
  else
    let l := (clusterCores (clusterAt cx cy)).filter s.presentHere
    if l.isEmpty then s.finish r c (Compl.absentUnit 2 (clusterAt cx cy))
    else (s.forAll l State.resetCore).finish r c Compl.done

/-- RESET_CLUSTER (R506). -/
def execResetCluster (r : Nat) (s : State) : Out := .next (s.startRing r (opIs 0x0006) (fun s c => s.startResetCluster r c))

/-- Starts RESET_CORE. -/
def State.startResetCore (s : State) (r : Nat) (c : Cmd) : State :=
  let x := bytesAt c.entry 16 2
  let y := bytesAt c.entry 18 2
  if 511 < x then s.finish r c (Compl.badArg 16)
  else if 447 < y then s.finish r c (Compl.badArg 18)
  else if ¬ s.presentHere (coreAt x y) then s.finish r c (Compl.absentUnit 1 (coreAt x y))
  else (s.resetCore (coreAt x y)).finish r c Compl.done

/-- RESET_CORE (R505). -/
def execResetCore (r : Nat) (s : State) : Out := .next (s.startRing r (opIs 0x0007) (fun s c => s.startResetCore r c))

/-! ### Feeder bindings and stereo entries (R365-R367) -/

/-- Whether a BIND_FEEDER entry asks to unbind. -/
def Cmd.unbinds (c : Cmd) : Bool := decide (c.opcode = 0x0009 ∧ bytesAt c.entry 18 1 = 1)

/-- The present cores of a forme in a port's edge row and columns (R365). -/
def State.edgeCores (s : State) (f p : Nat) : List Nat :=
  ((List.range 64).map (fun i => coreAt (64 * (p % 8) + i) (if p < 8 then 0 else 447))).filter (fun c =>
    (s.forme f).covers c && s.presentIn f c)

/-- What both forms of BIND_FEEDER check of the port: its number, its presence and another forme's binding (log 41, DEDUCED). -/
def State.portRefused (s : State) (f p : Nat) : Option Compl :=
  if 15 < p then some (Compl.badArg 17)
  else if ¬ s.portPresent p then some (Compl.absentUnit 5 p)
  else
    match (s.fport p).bound with
    | some b => if b.forme = f then none else some (s.badState b.forme)
    | none => none

/-- Starts BIND_FEEDER. -/
def State.startBind (s : State) (r : Nat) (c : Cmd) : State :=
  let f := bytesAt c.entry 16 1
  let p := bytesAt c.entry 17 1
  let session := bytesAt c.entry 20 2
  match s.portRefused f p with
  | some k => s.finish r c k
  | none =>
    if (s.edgeCores f p).isEmpty then s.finish r c (Compl.badArg 17)
    else if session = 0 then s.finish r c (Compl.badArg 20)
    else (s.updFport p (fun x => { x with bound := some ⟨f, session, bytesAt c.entry 24 4⟩ })).finish r c Compl.done

/-- BIND_FEEDER (R365). -/
def execBindFeeder (r : Nat) (s : State) : Out :=
  .next (s.startRing r (fun c => opIs 0x0009 c && !c.unbinds) (fun s c => s.startBind r c))

/-- Starts an unbind: the open frames of the binding are closed and go out (R384). -/
def State.startUnbind (s : State) (r : Nat) (c : Cmd) : State :=
  let f := bytesAt c.entry 16 1
  let p := bytesAt c.entry 17 1
  match s.portRefused f p with
  | some k => s.finish r c k
  | none =>
    if (s.fport p).bound.isNone then s.finish r c (s.badState f)
    else (((s.closeFrame p false).closeFrame p true).updFport p (fun x => { x with bound := none })).finish r c Compl.done

/-- UNBIND_FEEDER (R366). -/
def execUnbindFeeder (r : Nat) (s : State) : Out := .next (s.startRing r Cmd.unbinds (fun s c => s.startUnbind r c))

/-- A stereo entry's 16 bytes, when they are good (R367, R434). -/
def stereoEntry (b : Bytes) : Option Stereo :=
  let copy := bytesAt b 12 1
  if bytesAt b 0 4 < 2 ^ 24 ∧ bytesAt b 4 4 < 2 ^ 24 ∧ bytesAt b 8 4 < 2 ^ 20 ∧ 1 ≤ copy ∧ copy ≤ 3 ∧ zeroAt b 13 3 then
    some ⟨bytesAt b 0 4, bytesAt b 4 4, bytesAt b 8 4, copy⟩
  else none

/-- Starts SET_STEREO. -/
def State.startStereo (s : State) (r : Nat) (c : Cmd) : State :=
  let f := bytesAt c.entry 16 1
  let n := bytesAt c.entry 17 1
  let a := bytesAt c.entry 24 8
  if 16 < n then s.finish r c (Compl.badArg 17)
  else
    let s := if n = 0 then s else s.portDigest (s.hostUnit r) 2 0xFF c.sq none (s.hostSlots a ((n + 1) / 2))
    let l := (List.range n).map (fun i => stereoEntry (s.hostRead (a + 16 * i) 16))
    if l.all (·.isSome) then (s.updForme f (fun x => { x with stereo := l.filterMap id })).finish r c Compl.done
    else s.finish r c (Compl.badArg 24)

/-- SET_STEREO (R367). -/
def execSetStereo (r : Nat) (s : State) : Out := .next (s.startRing r (opIs 0x000A) (fun s c => s.startStereo r c))

/-! ### Running and waiting (R297, R300, R366) -/

/-- Whether every external tree of a forme names a port bound to it (R366). -/
def State.treesBound (s : State) (f : Nat) : Bool :=
  (s.forme f).trees.all (fun e => !e.2.external || decide ((s.fport e.2.port).bound.map (·.forme) = some f))

/-- A core as RUN starts it: enables from its INIT bits, no QUOIN wait, awake (R297). -/
def Core.launch (x : Core) : Core :=
  match x.st with
  | .empty => x
  | .quoin => x.initEnables.leaveQuoin
  | _ => x.initEnables.wake

/-- Starts RUN: the forme is RUNNING and the command stays outstanding. -/
def State.startRun (s : State) (r : Nat) (c : Cmd) : State :=
  if ¬ s.treesBound r then s.finish r c (s.badState r)
  else
    let s := s.putCmd r { c with prf := s.proves c }
    let s := s.forAll (s.formeCores r) (fun s k => s.updCore k Core.launch)
    s.updForme r (fun x => { x with
      state := 3, halting := false, runs := x.runs + 1, waited := 0, trees := x.trees.map (fun (e : Nat × Tree) => (e.1, { e.2 with arrived := [] })) })

/-- RUN (R297). -/
def execRun (r : Nat) (s : State) : Out := .next (s.startRing r (opIs 0x1005) (fun s c => s.startRun r c))

/-- Starts WAIT_QUOIN: it completes at once when its count has been reached. -/
def State.startWait (s : State) (r : Nat) (c : Cmd) : State :=
  let t := bytesAt c.entry 16 1
  if s.releaseMet r t (bytesAt c.entry 20 4) then s.finish r c (Compl.okWith (s.tree r t).releases) else s

/-- WAIT_QUOIN (R300). -/
def execWaitQuoin (r : Nat) (s : State) : Out := .next (s.startRing r (opIs 0x1006) (fun s c => s.startWait r c))

/-! ### FENCE, MARK and NOP (R426, R433, R443) -/

/-- FENCE (R426). -/
def execFenceCommand (r : Nat) (s : State) : Out := .next (s.startRing r (opIs 0x100C) (fun s _ => s.settle allFences))

/-- Writes a mark: its record, and its copy for the proof ring, whose layout no rule gives (R443, R531, R534, log 42, DESIGN CHOICE); the
command completes when the event ring has the record (R426). -/
def State.startMark (s : State) (r : Nat) (c : Cmd) : State :=
  let value := bytesAt c.entry 16 8
  let forme := if r < 64 then some r else none
  let ic := if r < 64 then s.draw.1 % 2 ^ 64 else 0
  let s := if r < 64 then s.draw.2 else s
  let mc := s.draw.1 % 2 ^ 64
  let detail := le value 8 ++ le ic 8 ++ le r 1
  let s := s.post {
    kind := 2, cls := 0, status := 0, code := 0, forme := forme, unitKind := 8, action := 0, flags := 0, unit := r, detail := detail }
  let kind := s.draw
  let s := kind.2.proofRecord (kind.1 % 256) forme 0 [] (detail ++ le mc 8)
  let kept := s.mgmt.evHold.drop (s.mgmt.evHold.length - 1)
  if s.mgmt.started ∧ (s.ring 72).state = 1 then s.putCmd r { c with ended := some (mc, kept) } else s.finish r c (Compl.okWith mc)

/-- MARK (R443). -/
def execMark (r : Nat) (s : State) : Out := .next (s.startRing r (opIs 0x100D) (fun s c => s.startMark r c))

/-- NOP_COMMAND (R433). -/
def execNopCommand (r : Nat) (s : State) : Out := .next (s.startRing r (opIs 0x1000) (fun s c => s.finish r c Compl.done))

/-! ### Clocks (R434, R460, R466, R470) -/

/-- The lowest and highest setting of a clock and its step, in MHz (R434, R466). -/
def clockRange (kind : Nat) : Nat × Nat × Nat :=
  match kind with
  | 0 => (800, 3300, 100)
  | 1 => (1000, 2000, 100)
  | 2 => (500, 1000, 10)
  | 3 => (100, 400, 25)
  | _ => (200, 400, 50)

/-- The operand of SET_CLOCKS that offends first (R466). -/
def clockRefused (b : Bytes) : Option Nat :=
  let k := bytesAt b 16 1
  let q := clockRange k
  let mhz := bytesAt b 18 2
  firstBad [(18, decide (mhz < q.1 ∨ q.2.1 < mhz ∨ (mhz - q.1) % q.2.2 ≠ 0))]

/-- Starts SET_CLOCKS: the forme setting changes now, an edge clock after the command completes (R460, R470). -/
def State.startClocks (s : State) (r : Nat) (c : Cmd) : State :=
  let k := bytesAt c.entry 16 1
  let mhz := bytesAt c.entry 18 2
  let f := bytesAt c.entry 17 1
  match clockRefused c.entry with
  | some o => s.finish r c (Compl.badArg o)
  | none =>
    if k = 0 then
      let s := s.forAll ((s.forme f).clusters.filter (fun n => decide ((s.cluster n).forme = some f))) (fun s n =>
        s.updCluster n (fun x => { x with formeStep := mhz / 100 }))
      (s.updForme f (fun x => { x with clockStep := mhz / 100 })).finish r c Compl.done
    else
      let units := if k ≤ 2 then maskList (bytesAt c.entry 24 8) 56 else [0]
      ({ s with clocks := { s.clocks with pending := s.clocks.pending ++ units.map (fun u => (k, u, mhz)) } }).finish r c Compl.done

/-- SET_CLOCKS (R466). -/
def execSetClocks (r : Nat) (s : State) : Out := .next (s.startRing r (opIs 0x0002) (fun s c => s.startClocks r c))

/-- An edge clock takes a setting: kind 1 a field's stations, 2 a port, 3 the setup bus, 4 the management processor. -/
def State.setClock (s : State) (kind unit mhz : Nat) : State :=
  match kind with
  | 1 => s.updField unit (fun x => { x with stc := mhz })
  | 2 => s.updFport unit (fun x => { x with ptc := mhz })
  | 3 => { s with clocks := { s.clocks with sbc := mhz } }
  | _ => { s with clocks := { s.clocks with mpc := mhz } }

/-- CLOCK_CHANGE (R470): a waiting change of an edge clock happens, the oldest of its clock first. -/
def execClockChange (i : Nat) (s : State) : Out :=
  .next (match s.clocks.pending[i]? with
    | none => s
    | some e =>
      match s.clocks.pending.find? (fun d => d.1 == e.1 && d.2.1 == e.2.1) with
      | none => s
      | some d => ({ s with clocks := { s.clocks with pending := s.clocks.pending.erase d } }).setClock d.1 d.2.1 d.2.2)

/-! ### START_TEST (R445, R503) -/

/-- The lowest forme, not EMPTY, that holds a cluster of a field in a mask (R445). -/
def State.testHolder (s : State) (mask : Nat) : Option Nat :=
  (s.formes.find? (fun e => decide (e.2.state ≠ 0) && e.2.clusters.any (fun k => mask.testBit (clusterField k)))).map (·.1)

/-- What START_TEST refuses, in the order of R423 (R445, R503, log 43, DEDUCED). -/
def State.testRefused (s : State) (kind mask : Nat) : Option Compl :=
  let l := maskList mask 56
  match s.testHolder mask with
  | some f => some (s.badState f)
  | none =>
    if l.any (fun n => decide ((s.field n).testing ≠ 0)) then some s.badDevice
    else if kind = 1 ∧ s.phys.stacked = false then some (Compl.absentUnit 4 (8 * l.headD 0))
    else
      match l.find? (fun n => !s.fieldEnabled n), l.find? (fun n => (s.field n).dark) with
      | some n, _ => some (Compl.absentUnit 3 n)
      | none, some _ => some { Compl.bare Config.thermal with detail := Config.clsFieldDark }
      | none, none => none

/-- Starts START_TEST: its fields are under test until the test ends. -/
def State.startFieldTest (s : State) (r : Nat) (c : Cmd) : State :=
  let kind := bytesAt c.entry 16 1
  let mask := bytesAt c.entry 24 8
  match s.testRefused kind mask with
  | some k => s.finish r c k
  | none =>
    if mask = 0 then s.finish r c Compl.done
    else s.forAll (maskList mask 56) (fun s n => s.updField n (fun x => { x with testing := kind + 1 }))

/-- START_TEST (R503). -/
def execStartTest (r : Nat) (s : State) : Out := .next (s.startRing r (opIs 0x000D) (fun s c => s.startFieldTest r c))

end Sys2Proof.Machine
end

