-- ==== Sys2Proof/Machine/Query.lean ====
section
/-! DEFINITION. What the host reads and loads through the admin rings: QUERY and its records, ATTEST, HELLBOX_EXPORT and
LOAD_LEADING (R35, R41-R44, R107, R268, R335, R383, R439-R442, R524-R530, R561, R572-R573). -/

namespace Sys2Proof.Machine

/-! ### The absence map (R42-R44) -/

/-- The state with every column that no open forme holds under the full hellbox (R42). -/
def State.asNow (s : State) : State := s.recompute 64

/-- Every logical core, in ascending y, then x. -/
def allCores : List Nat := List.range (512 * 448)

/-- Every cluster, in ascending cy, then cx. -/
def allClusters : List Nat := List.range (128 * 112)

/-- A mask of the numbers below `n` that satisfy a predicate. -/
def presenceMask (n : Nat) (p : Nat → Bool) : Nat := ((List.range n).filter p).foldl setBit 0

/-- A field record (R43). -/
def State.fieldRecord (s : State) (f : Nat) : Bytes :=
  let dead := (s.hellbox.filter (fun e => e.kind == 1 && e.field == f)).length
  le (presenceMask 64 (fun c => decide (2 < (s.column (f * 64 + c)).length))) 8
    ++ le (presenceMask 256 (fun i => s.hellbox.any (fun e => e.kind == 3 && e.field == f && 16 * e.row + e.col == i))) 32
    ++ le (if ¬ s.fieldEnabled f then 1 else if (s.field f).dark then 2 else 0) 1 ++ zeros 1 ++ le dead 2 ++ zeros 4

/-- The absent links: dead links between two present cores, from their west or north end, in ascending y, then x (R44). -/
def State.absentLinks (s : State) : List Nat :=
  if s.hellbox.any (fun e => e.kind == 2) then
    allCores.flatMap (fun c => ([1, 2].filter (fun d => s.present c && s.linkDeadIn s.hellbox c d
      && (match s.neighbour c d with
          | some n => s.present n
          | none => false))).map (fun d => c + d * 2 ^ 18))
  else []

/-- The absence map of a state whose columns are as now (R42). -/
def State.mapBytes (s : State) : Bytes :=
  let links := s.absentLinks
  le s.mapGen 4 ++ le 1 2 ++ zeros 2 ++ le (presenceMask 56 s.fieldPresent) 8 ++ le (presenceMask 56 (fun f => !s.fieldEnabled f)) 8
    ++ le (presenceMask 56 (fun f => (s.field f).dark)) 8 ++ le (presenceMask 16 s.portPresent) 2 ++ le (presenceMask 2 s.bayPresent) 1 ++ zeros 1
    ++ le (allCores.filter s.present).length 4 ++ le (allClusters.filter s.clusterPresent).length 4
    ++ le ((List.range 448).filter s.stationPresent).length 2 ++ zeros 2 ++ le links.length 4 ++ zeros 12
    ++ (List.range 56).flatMap s.fieldRecord ++ le (presenceMask 448 s.stationPresent) 56 ++ zeros 8 ++ links.flatMap (fun l => le l 4)

/-! ### Records of units -/

/-- The forme record (R441); the keeper's count of ic is a free value. -/
def State.formeRecord (s : State) (f : Nat) : Bytes :=
  let x := s.forme f
  if x.state = 0 then zeros 128
  else
    le x.state 1 ++ le (b2n x.resets) 1 ++ le x.status 1 ++ le x.faultClass 1 ++ le x.mapGen 4
      ++ le x.cx0 2 ++ le x.cy0 2 ++ le x.cx1 2 ++ le x.cy1 2 ++ le (Config.freeNat s.free) 8 ++ le x.waited 8
      ++ (List.range 16).flatMap (fun t => le (s.tree f t).releases 4)
      ++ le (match x.faultCore with
          | some c => c + 2 ^ 31
          | none => 0) 4
      ++ le x.faultCode 1 ++ zeros 27

/-- The counters of ic of a core brought up to date: they have advanced while its forme was RUNNING, and once it is not they stand
(R559, R560). -/
def State.countIc (s : State) (c : Nat) : State :=
  match s.formeOf c with
  | none => s
  | some f =>
    let x := s.core c
    if x.counted < (s.forme f).runs then
      let r := x.advanceIcs s.free
      { s with free := r.2 }.setCore c { r.1 with counted := if (s.forme f).state = 3 then x.counted else (s.forme f).runs }
    else s

/-- CS_ register `i` of a core as QUERY reads it; a free part of CS_STATE is draw `d` (R107, R112, R559). -/
def State.csRead (s : State) (c d i : Nat) : Nat :=
  if i = 0x003 then (s.core c).stateWord d else (s.core c).csValue c (s.shiftOf c) i

/-- Four numbers of a table, `n` bytes each: inputs N, E, S, W. -/
def four (m : Map Nat) (n : Nat) : Bytes := (List.range 4).flatMap (fun d => le (Map.get 0 m d) n)

/-- The counters of a router (R268). -/
def Router.record (r : Router) : Bytes :=
  four r.corr 4 ++ four r.uncorr 2 ++ four r.hpar 1 ++ le r.chaseDrop 4 ++ le r.absorbed 4 ++ le r.hopDrop 2 ++ le r.typeDrop 2
    ++ le r.merged 4 ++ le r.bypass 4 ++ le r.detoured 4 ++ le r.groupMiss 4 ++ zeros 8

/-- The counts of cycles of unit `n` brought up to date: each has advanced by a free number, saturating (R561; log 1, DESIGN CHOICE). -/
def State.countCycles (s : State) (n : Nat) : State :=
  { s with
    cycles := (List.range 3).foldl (fun (m : Map Nat) k => m.bump (3 * n + k) (Config.freeNat (s.free + k)) 64) s.cycles
    free := s.free + 3 }

/-- The counter record of unit `n` of R561. -/
def State.unitCounters (s : State) (n : Nat) : Bytes :=
  let cycles := (List.range 3).flatMap (fun k => le (Map.get 0 s.cycles (3 * n + k)) 8)
  if n < 448 then
    if s.stationPresent n then
      let m := s.station n
      cycles ++ le m.dup 4 ++ le m.nospace 4 ++ le m.denied 4 ++ le m.unlisted 4 ++ le m.combined 4 ++ le m.evictions 4
        ++ le m.corrected 4 ++ le m.uncorrected 4 ++ zeros 8
    else zeros 64
  else if (if n < 464 then s.portPresent (n - 448) else s.bayPresent (n - 464)) then cycles ++ zeros 40
  else zeros 64

/-- The status record of a port (R383). -/
def FPort.record (p : FPort) : Bytes :=
  let b := match p.bound with
    | some b => le (0x80 + b.forme) 1 ++ le b.session 2 ++ le b.contributor 4
    | none => zeros 7
  le p.link 1 ++ b ++ le p.epoch 4 ++ le (p.peerEpoch.getD 0) 4 ++ le p.txNext 2 ++ le p.txAcked 2 ++ le p.rxNext 2 ++ zeros 2
    ++ le p.retrans 4 ++ le p.nakRx 4 ++ le p.frameDrop 4 ++ le p.fecCorr 4 ++ le p.fecUncorr 4 ++ le p.cancelDrop 4
    ++ le p.protoErr 4 ++ le p.excess 4 ++ le p.poisonRx 2 ++ le p.losses 2 ++ le p.cwDetect 4

/-- A context table entry (R335). -/
def Ctx.record (c : Ctx) : Bytes :=
  le c.base 8 ++ le c.length 8 ++ le c.generation 4 ++ le (match c.writer with
    | some w => w + 2 ^ 31
    | none => 0) 4 ++ le c.forme 1 ++ le (b2n c.live) 1 ++ zeros 6

/-- Whether a cluster is present for QUERY: in the absence map, or in its forme's view (R49, R440, log 44, DEDUCED). -/
def State.clusterHere (s : State) (k : Nat) : Bool :=
  s.clusterPresent k || (match (s.cluster k).forme with
    | some f => s.clusterPresentIn f k
    | none => false)

/-- The record of a cluster (R442). -/
def State.clusterRecord (s : State) (k : Nat) : Bytes :=
  if s.clusterHere k then
    let x := s.cluster k
    let fd := s.field (clusterField k)
    let flags := b2n x.refLost + 2 * b2n fd.stretched + 4 * b2n (s.clusterPresent k) + 8 * b2n fd.dark + 16 * b2n (retiredIn s.hellbox k)
    le (match x.forme with
      | some f => 0x80 + f
      | none => 0) 1 ++ le x.ladder 1 ++ le x.cap 1 ++ le (ofInt x.voff 8) 1 ++ le (ofInt x.temp0 16) 2 ++ le (ofInt x.temp1 16) 2
      ++ le (ofInt x.ageing 32) 4 ++ le flags 1 ++ le x.mismatches 1 ++ zeros 2
  else zeros 16

/-! ### The leading plan (R524-R530) -/

/-- Bytes of a leading plan. -/
abbrev planLen : Nat := 172416

/-- A cluster's record in a plan (R525). -/
def Lead.bytes (x : Lead) : Bytes :=
  le (ofInt x.voff 8) 1 ++ le x.cap 1 ++ le x.flags 1 ++ zeros 1 ++ le (ofInt x.index 32) 4 ++ le x.r0 4

/-- The current plan as its bytes (R524); the records of the clusters of disabled fields are zero (R525). -/
def State.planBytes (s : State) : Bytes :=
  let p := s.plan
  le 0x4441454C 4 ++ le 1 2 ++ zeros 2 ++ le s.phys.serial 8 ++ le p.generation 4 ++ le p.plans 4 ++ le planLen 4 ++ zeros 4
    ++ padTo p.prevHead 32 ++ zeros 64 ++ (List.range 56).flatMap (fun f => le (Map.get 0 p.setpoints f) 2 ++ zeros 2) ++ zeros 32
    ++ allClusters.flatMap (fun k =>
      if s.fieldEnabled (clusterField k) then (Map.get Lead.init p.clusters k).bytes else zeros 12)

/-- The offset of cluster `k`'s record. -/
def leadAt (k : Nat) : Nat := 384 + 12 * k

/-- Whether a field record of a plan is good (R525). -/
def planFieldOk (g : Rd) (f : Nat) : Bool :=
  let v := g (128 + 4 * f) 2
  decide (700 ≤ v ∧ v ≤ 850 ∧ v % 5 = 0) && g.zero (130 + 4 * f) 2

/-- Whether a cluster record of a plan is good (R525). -/
def planLeadOk (g : Rd) (k : Nat) : Bool :=
  let o := leadAt k
  let v := sext (g o 1) 8
  decide (-8 ≤ v ∧ v ≤ 12) && decide (8 ≤ g (o + 1) 1 ∧ g (o + 1) 1 ≤ 33 ∧ g (o + 2) 1 < 4) && g.zero (o + 3) 1

/-- Whether a plan is accepted for some fields (R526). -/
def State.planOk (s : State) (g : Rd) (fields : Nat) : Bool :=
  decide (g 0 4 = 0x4441454C ∧ g 4 2 = 1 ∧ g 8 8 = s.phys.serial ∧ g 24 4 = planLen) && g.zero 6 2 && g.zero 28 4 && g.zero 64 64
    && g.zero 352 32 && (maskList fields 56).all (planFieldOk g)
    && allClusters.all (fun k => !fields.testBit (clusterField k) || planLeadOk g k)

/-- The plan that its bytes spell, for the enabled fields. -/
def planOf (g : Rd) (fields : Nat) : Plan :=
  { Plan.init with
    generation := g 16 4, plans := g 20 4, prevHead := le (g 32 32) 32
    setpoints := (maskList fields 56).foldl (fun (m : Map Nat) f => Map.set 0 m f (g (128 + 4 * f) 2)) []
    clusters := (allClusters.filter (fun k => fields.testBit (clusterField k))).foldl (fun (m : Map Lead) k =>
      let o := leadAt k
      Map.set Lead.init m k ⟨sext (g o 1) 8, g (o + 1) 1, g (o + 2) 1, sext (g (o + 4) 4) 32, g (o + 8) 4⟩) [] }

/-- A new plan joins the ageing history: its head and count follow from the plan's own fields (R529, R530, log 45, DEDUCED). -/
def State.chainPlan (s : State) : State :=
  let p := s.plan
  { s with plan := { p with histHead := sha256 (padTo p.prevHead 32 ++ sha256 s.planBytes), histPlans := (p.plans + 1) % 2 ^ 32 } }

/-- A cluster takes its record of the current plan (R433). -/
def State.takeLead (s : State) (k : Nat) : State :=
  let p := Map.get Lead.init s.plan.clusters k
  s.updCluster k (fun x => { x with voff := p.voff, cap := p.cap })

/-- The clusters of the enabled fields that lie in no forme take the current plan at once (R433, R528). -/
def State.applyPlan (s : State) : State :=
  s.forAll (allClusters.filter (fun k => s.fieldEnabled (clusterField k) && (s.cluster k).forme.isNone)) State.takeLead

/-- The fields that the enablement record enables, as a mask. -/
def State.enabledMask (s : State) : Nat :=
  match s.enable with
  | some e => e.fields
  | none => 0

/-- Starts LOAD_LEADING (R433, R526). -/
def State.startLeading (s : State) (r : Nat) (c : Cmd) : State :=
  let a := bytesAt c.entry 16 8
  if bytesAt c.entry 24 4 ≠ planLen then s.finish r c (Compl.badArg 24)
  else
    let g : Rd := fun off n => s.hostNat (a + off) n
    let t := s.portDigest (s.hostUnit r) 2 0xFF c.sq none (s.hostSlots a (planLen / 32))
    if s.planOk g s.enabledMask then
      (({ t with plan := planOf g s.enabledMask }).chainPlan.applyPlan).finish r c Compl.done
    else t.finish r c (Compl.badArg 16)

/-- LOAD_LEADING (R433). -/
def execLoadLeading (r : Nat) (s : State) : Out := .next (s.startRing r (opIs 0x0001) (fun s c => s.startLeading r c))

/-! ### QUERY (R439, R440) -/

/-- The cores that `first` names for selectors 3 and 4. -/
def queryCores (first : Nat) : List Nat := rectCores (bits first 8 0) (bits first 17 9) (bits first 26 18) (bits first 35 27)

/-- The operand of a QUERY that offends first, in ascending offset (R423, R430, R439). -/
def queryBad (b : Bytes) : Option Nat :=
  let sel := bytesAt b 16 2
  let count := bytesAt b 20 4
  let first := bytesAt b 24 8
  let index := if sel = 3 then bits first 45 36 else bits first 25 16
  let corners := decide (bits first 26 18 < bits first 8 0 ∨ bits first 35 27 < bits first 17 9 ∨ 447 < bits first 35 27)
  firstBad [(20, decide ((sel = 3 ∨ sel = 7) ∧ (count = 0 ∨ 1024 < count))),
    (24, match sel with
      | 3 => decide (1024 < index + count) || corners
      | 4 => corners
      | 5 => decide (bits first 17 9 < bits first 8 0 ∨ 465 < bits first 17 9)
      | 7 => decide (447 < bits first 8 0 ∨ 1024 < index + count)
      | 8 => decide (bits first 20 14 < bits first 6 0 ∨ bits first 27 21 < bits first 13 7 ∨ 111 < bits first 27 21)
      | _ => false),
    (32, decide (bytesAt b 32 8 % 32 ≠ 0))]

/-- The units that selector 5 names. -/
def queryUnits (first : Nat) : List Nat := (List.range (bits first 17 9 + 1)).drop (bits first 8 0)

/-- The counters that a QUERY reads, brought up to date. -/
def State.beforeQuery (s : State) (b : Bytes) : State :=
  let first := bytesAt b 24 8
  match bytesAt b 16 2 with
  | 3 => s.forAll ((queryCores first).filter s.presentHere) State.countIc
  | 5 => s.forAll (queryUnits first) State.countCycles
  | 2 => s.agePatience (bytesAt b 18 1)
  | _ => s

/-- The bytes that a QUERY writes, and the free draws that they use (R439). -/
def State.queryBytes (s : State) (b : Bytes) : Bytes × Nat :=
  let first := bytesAt b 24 8
  let count := bytesAt b 20 4
  match bytesAt b 16 2 with
  | 1 => (s.asNow.mapBytes, 0)
  | 2 => (s.formeRecord (bytesAt b 18 1), 1)
  | 3 =>
    let l := queryCores first
    let i0 := bits first 45 36
    ((List.range l.length).flatMap (fun j =>
      let c := l.getD j 0
      if s.presentHere c then (List.range count).flatMap (fun i => le (s.csRead c (s.free + j) (i0 + i)) 4) else zeros (4 * count)),
      l.length)
  | 4 => ((queryCores first).flatMap (fun c => if s.presentHere c then (s.router c).record else zeros 64), 0)
  | 5 => ((queryUnits first).flatMap s.unitCounters, 0)
  | 6 => ((maskList first 16).flatMap (fun p => if s.portPresent p then (s.fport p).record else zeros 64), 0)
  | 7 =>
    let n := bits first 8 0
    ((List.range count).flatMap (fun i =>
      if s.stationPresent n then (Map.get Ctx.init (s.station n).ctx (bits first 25 16 + i)).record else zeros 32), 0)
  | 8 =>
    let t := s.asNow
    ((rectClusters (bits first 6 0) (bits first 13 7) (bits first 20 14) (bits first 27 21)).flatMap t.clusterRecord, 0)
  | _ => (s.planBytes, 0)

/-- Starts QUERY. -/
def State.startQuery (s : State) (r : Nat) (c : Cmd) : State :=
  let a := bytesAt c.entry 32 8
  match queryBad c.entry with
  | some o => s.finish r c (Compl.badArg o)
  | none =>
    if bytesAt c.entry 16 2 = 7 ∧ s.phys.stacked = false then s.finish r c (Compl.absentUnit 4 (bits (bytesAt c.entry 24 8) 8 0))
    else
      let s := s.beforeQuery c.entry
      let q := s.queryBytes c.entry
      let n := q.1.length
      if bytesAt c.entry 40 4 < n then s.finish r c (Compl.noRoom n)
      else ({ s.hostPut a q.1 false with free := s.free + q.2 }).finish r c (Compl.okWith n)

/-- QUERY (R439). -/
def execQuery (r : Nat) (s : State) : Out := .next (s.startRing r (opIs 0x000B) (fun s c => s.startQuery r c))

/-! ### Signed documents: the additions part and the colophon (R35, R41, R572-R575) -/

/-- The additions part without its signature (R35). -/
def State.additionsBytes (s : State) : Bytes :=
  let l := s.additions
  le 0x31584248 4 ++ le 1 2 ++ le 1 1 ++ zeros 1 ++ le s.phys.serial 8 ++ le l.length 4 ++ zeros 4 ++ padTo s.mgmt.identity 32
    ++ zeros 8 ++ l.flatMap HbEntry.bytes

/-- hellbox_digest (R573). -/
def State.hellboxDigest (s : State) : Bytes :=
  sha256 (sha256 s.boot.factory ++ sha256 (if s.additions.isEmpty then zeros 64 else s.additionsBytes))

/-- Bytes 0-383 of the colophon (R572). -/
def State.colophon (s : State) (nonce : Bytes) : Bytes :=
  let t := s.asNow
  let signed := match s.enable with
    | some e => e.signed
    | none => zeros 64
  let serial := bytesAt signed 8 8
  le 0x4E4F4C43 4 ++ le 1 2 ++ le s.regs.part 1 ++ le s.regs.devState 1 ++ le 17472 4 ++ le s.mapGen 4 ++ le serial 8
    ++ le (Config.freeNat s.free) 8 ++ padTo nonce 32 ++ padTo s.mgmt.identity 32 ++ padTo s.mgmt.publicKey 32
    ++ padTo s.phys.romDigest 32 ++ padTo s.boot.patchDigest 32 ++ sha256 signed ++ s.hellboxDigest ++ sha256 s.planBytes
    ++ le (allCores.filter t.present).length 4 ++ le (allClusters.filter t.clusterPresent).length 4
    ++ le ((List.range 448).filter s.stationPresent).length 2 ++ le (presenceMask 16 s.portPresent) 2 ++ le (presenceMask 2 s.bayPresent) 1
    ++ le (b2n s.regs.quick) 1 ++ le (s.regs.rom.toNat / 2 ^ 16) 2 ++ le (s.regs.rom.toNat % 2 ^ 16) 2 ++ zeros 2
    ++ le (s.mgmt.seqNext + 2 ^ 32 - 1) 4 ++ zeros 72

/-- Asks the SLH-DSA assist for a signature; the command stays outstanding (R575). -/
def State.askSignature (s : State) (kind r : Nat) (c : Cmd) (body : Bytes) : State :=
  { s with mgmt := { s.mgmt with sigQueue := s.mgmt.sigQueue ++ [⟨kind, r, c.sq, body⟩] } }

/-- Starts ATTEST: its fields are one snapshot, taken now (R572). -/
def State.startAttest (s : State) (r : Nat) (c : Cmd) : State :=
  if bytesAt c.entry 24 4 < 17472 then s.finish r c (Compl.noRoom 17472)
  else ({ s with free := s.free + 1 }).askSignature 1 r c (s.colophon ((c.entry.drop 32).take 32))

/-- ATTEST (R572). -/
def execAttest (r : Nat) (s : State) : Out := .next (s.startRing r (opIs 0x000C) (fun s c => s.startAttest r c))

/-- Starts HELLBOX_EXPORT (R35, R41). -/
def State.startExport (s : State) (r : Nat) (c : Cmd) : State :=
  let body := s.additionsBytes
  let n := body.length + Config.identitySigLen
  if bytesAt c.entry 24 4 < n then s.finish r c (Compl.noRoom n)
  else s.askSignature 2 r c body

/-- HELLBOX_EXPORT (R41). -/
def execHellboxExport (r : Nat) (s : State) : Out := .next (s.startRing r (opIs 0x000E) (fun s c => s.startExport r c))

end Sys2Proof.Machine
end

