-- ==== Sys2Proof/Machine/Bays.lean ====
section
/-! DEFINITION. The host bays: the core requests of R447, the assembly of report records, and the bay's link (R386, R391,
R446-R450). -/

namespace Sys2Proof.Machine

/-- The host bus address of a request (R447). -/
def hostAddr (d : Nat) : Nat := dAddr d + bits (dArg d) 15 0 * 2 ^ 48

/-- Whether a HOST_OP obeys R447; on VC1 it is a REPORT with one payload slot (R446; log 102, DEDUCED). -/
def bayOpOk (m : Msg) : Bool :=
  let d := m.desc
  let n := dLen d
  decide (m.len = m.slots.length) && decide (dFlags d = 0) && decide (1 ≤ n ∧ n ≤ 7) && decide (m.vc = 0 ∨ (dOp d = 3 ∧ n = 1))
    && (if dOp d = 1 then decide (dAddr d % 32 = 0 ∧ bits (dArg d) 31 16 = 0 ∧ m.len = 0)
        else if dOp d = 2 then decide (dAddr d % 32 = 0 ∧ bits (dArg d) 31 16 = 0 ∧ m.len = n)
        else if dOp d = 3 then decide (dAddr d = 0 ∧ dArg d ≤ 1 ∧ m.len = n)
        else false)

/-- Whether a REPORT waits at a bay: for an assembly, or for space in the report ring (R450, R451). -/
def State.reportWaits (s : State) (b : Nat) (m : Msg) : Bool :=
  m.isReport && bayOpOk m && decide ((s.bay b).width ≠ 0) && (s.reportsShort || (s.bay b).full m)

/-- The request that a bay serves next: the oldest on VC1 before the oldest on VC0, but for one that waits (R446, R450; log 102,
DEDUCED). -/
def State.bayNext (s : State) (b : Nat) : Option Msg :=
  let l := (s.bay b).ops.filter (fun m => m.typ == MT.hostOp)
  ((l.find? (fun m => m.vc != 0)).toList ++ (l.find? (fun m => m.vc == 0)).toList).find? (fun m => !s.reportWaits b m)

/-- Serves the next core request of a bay when it is of an operation: one without a link is LINK_DOWN and a bad one BADARG
(R391, R447, R448, log 46, DEDUCED). -/
def State.serveBay (s : State) (b op : Nat) (act : Msg → State → State → State) : State :=
  match s.bayNext b with
  | none => s
  | some m =>
    if dOp m.desc ≠ op ∧ bayOpOk m then s
    else
      let t := s.updBay b (fun x => { x with ops := x.ops.erase m })
      if (s.bay b).width = 0 then t.bayAnswer b m.reply [] Config.linkDown 0
      else if !bayOpOk m then t.bayAnswer b m.reply [] Config.badArg 0
      else act m s t

/-- HOST_READ (R447): host memory to a core, under the forme's windows; none while the proof recorder is full (R452). -/
def execHostRead (b : Nat) (stores : List HostStore) (s : State) : Out :=
  .next ((s.hostStores stores).serveBay b 1 (fun m s t =>
    let a := hostAddr m.desc
    let n := dLen m.desc
    if s.proofFull then s
    else if ¬ s.hostAdmits m.forme a (32 * n) 0 then t.bayAnswer b m.reply [] Config.deniedCode 0
    else
      let l := s.hostSlots a n
      (t.portDigest (16 + b) 3 m.sport m.src (some m.forme) l).bayAnswer b m.reply l Config.ok 0))

/-- HOST_WRITE (R447): core data to host memory, under the forme's windows. -/
def execHostWrite (b : Nat) (s : State) : Out :=
  .next (s.serveBay b 2 (fun m s t =>
    let a := hostAddr m.desc
    if ¬ s.hostAdmits m.forme a (32 * dLen m.desc) 1 then t.bayAnswer b m.reply [] Config.deniedCode 0
    else ((t.runData m.forme 4 (m.tag % 16) m.slots).hostPutSlots a m.slots).bayAnswer b m.reply [] Config.ok 0)).settleEnded

/-- Appends a REPORT to its assembly, and closes the record when MORE is 0 (R448-R450). -/
def State.appendReport (t : State) (b : Nat) (m : Msg) : State :=
  let bay := t.bay b
  let old := bay.asms.find? (fun a => a.isFor m)
  let rest := bay.asms.filter (fun a => !a.isFor m)
  let l := (match old with
    | some a => a.slots
    | none => []) ++ m.slots
  let without := t.updBay b (fun x => { x with asms := rest })
  if (t.ring 73).state ≠ 1 then without.bayAnswer b m.reply [] Config.badState 0
  else if 63 < l.length then without.bayAnswer b m.reply [] Config.badArg 0
  else
    let t := t.runData m.forme 4 (m.tag % 16) m.slots
    if dArg m.desc = 1 then
      (t.updBay b (fun x => { x with asms := rest ++ [⟨m.src, m.sport, m.forme, l⟩] })).bayAnswer b m.reply [] Config.ok 0
    else
      { (t.updBay b (fun x => { x with asms := rest })) with
        reports := t.reports ++ [⟨m.forme, m.src, m.sport, m.tag, l, some m.reply, b⟩] }

/-- REPORT (R450). -/
def execReportOp (b : Nat) (s : State) : Out := .next (s.serveBay b 3 (fun m _ t => t.appendReport b m)).settleEnded

/-- Posts HOST_LINK (R386, R391, R534). -/
def State.noteHostLink (s : State) (b width : Nat) : State :=
  s.post (RecSpec.event Config.clsHostLink 6 b (le width 1))

/-- HOST_LINK_DOWN (R391): the bay's rings hold, and its host accesses end with LINK_DOWN. -/
def execHostLinkDown (b : Nat) (s : State) : Out :=
  .next (if (s.bay b).width = 0 then s else ((s.updBay b (fun x => { x with width := 0 })).setStatus 2).noteHostLink b 0)

/-- The rings that a bay reaches. -/
def State.ringsOf (s : State) (b : Nat) : List Nat := (List.range 75).filter (fun r => (s.ring r).bayOf == b)

/-- HOST_LINK_RETRAIN (R386, R391): what the bay's rings held goes out and they fetch again; a changed width sets HOSTLINK (R407), and a
link narrower than four modules is posted (log 47, DEDUCED). -/
def execHostLinkRetrain (b width : Nat) (s : State) : Out :=
  .next (if (s.bay b).die ∧ 1 ≤ width ∧ width ≤ 3 ∧ ¬ s.power.resetLow then
      let s := if (s.bay b).width ≠ width then s.setStatus 2 else s
      let s := s.updBay b (fun x => { x with width := width })
      let s := if width < 3 then s.noteHostLink b width else s
      s.forAll (s.ringsOf b) (fun s r => ((s.flushHeld r).fetch r).takeConsumer r)
    else s)

end Sys2Proof.Machine
end

