-- ==== Sys2Proof/Machine/Mgmt.lean ====
section
/-! DEFINITION. The management stream: checkpoints, signatures, and the Management Datagram Protocol (R535-R544, R575). -/

namespace Sys2Proof.Machine

/-! ### Checkpoints and signatures (R541, R542, R575) -/

/-- Posts a checkpoint record over the chain so far and asks for its signature (R541, R542). -/
def State.checkpointNow (s : State) : State :=
  let mc := s.draw.1 % 2 ^ 64
  let n := s.mgmt.seqNext
  let c := s.mgmt.chain
  let s := s.post {
    kind := 3, cls := 0, status := 0, code := 0, forme := none, unitKind := 0, action := 0, flags := 0, unit := 0, detail := c }
  { s with mgmt := { s.mgmt with
      checkPending := true, checkDue := false
      sigQueue := s.mgmt.sigQueue ++ [⟨0, n, 0, padTo s.mgmt.identity 32 ++ le n 4 ++ c ++ le mc 8⟩] } }

/-- Posts a checkpoint when at least `need` records have been posted since the last one and no signature is pending (R542). -/
def State.tryCheckpoint (s : State) (need : Nat) : State :=
  if s.mgmt.started ∧ ¬ s.mgmt.checkPending ∧ need ≤ s.mgmt.sinceCheck then s.checkpointNow else s

/-- A trigger passes: a checkpoint now, or, behind a pending signature, when that is complete (R542). -/
def State.checkpointTrigger (s : State) : State :=
  if s.mgmt.started ∧ s.mgmt.checkPending ∧ 1 ≤ s.mgmt.sinceCheck then { s with mgmt := { s.mgmt with checkDue := true } }
  else s.tryCheckpoint 1

/-- CHECKPOINT (R542): its trigger passes, and at least one record has been posted since the last checkpoint.  `ram` names the bytes of
the management processor's RAM that its 144/128 code corrects on the way (R510; log 108, DESIGN CHOICE). -/
def execCheckpoint (s : State) (ram : List Nat := []) : Out :=
  .next ((s.forAll ram (fun s loc => s.noteCorrected 9 0 6 loc)).checkpointTrigger)

/-- The signature that the identity key gives a message (R571). -/
def Mgmt.sign (m : Mgmt) (body : Bytes) : Bytes :=
  match m.key with
  | none => zeros Config.identitySigLen
  | some k => (List.range Config.identitySigLen).map (Config.slhSignByte k body)

/-- Fragment `i` of a CHECKPOINT datagram: `b` holds the 76-byte message and its signature (R541). -/
def Mgmt.fragment (m : Mgmt) (b : Bytes) (i : Nat) : Bytes :=
  let part := ((b.drop 76).drop (1088 * i)).take 1088
  m.header 2 0 ++ (b.drop 32).take 4 ++ le i 1 ++ le 16 1 ++ le part.length 2 ++ (b.drop 68).take 8 ++ (b.drop 36).take 32 ++ zeros 16
    ++ part

/-- Sends an unsent signature that satisfies a predicate, when one is held (R541). -/
def Mgmt.sendSig (m : Mgmt) (p : Bytes → Bool) : Mgmt :=
  match m.sigs.find? (fun e => !e.sent && p e.bytes) with
  | none => m
  | some e =>
    let sigs := m.sigs.map (fun (x : Rec) => if x.bytes = e.bytes then { x with sent := true } else x)
    (List.range 16).foldl (fun m i => m.send (m.fragment e.bytes i)) { m with sigs := sigs }

/-- Whether a signed message is that of a checkpoint record: its seq, its chain value and its mc. -/
def signs (r b : Bytes) : Bool :=
  decide ((b.drop 32).take 4 = r.take 4 ∧ (b.drop 36).take 32 = r.drop 32 ∧ (b.drop 68).take 8 = (r.drop 8).take 8)

/-- A checkpoint's signature is complete: sent now, or held; a trigger that passed meanwhile posts its record (R542, R543). -/
def State.checkpointSigned (s : State) (o : SigOp) : State :=
  let m := s.mgmt
  let m := { m with
    sigs := lastN (m.sigs ++ [({ bytes := o.body ++ m.sign o.body, sent := false } : Rec)]) 4, checkPending := false }
  ({ s with mgmt := if s.mgmtSends then m.sendSig (fun b => b.take 76 == o.body) else m }).tryCheckpoint (if s.mgmt.checkDue then 1 else 256)

/-- A signed document is written to its command's address, and the command completes (R41, R572). -/
def State.documentSigned (s : State) (o : SigOp) : State :=
  match (s.ring o.n).cmd o.sq with
  | none => s
  | some c =>
    let b := o.body ++ s.mgmt.sign o.body
    (s.hostPut (bytesAt c.entry 16 8) b false).finish o.n c (Compl.okWith b.length)

/-- SIGNATURE_COMPLETE (R575): the oldest operation of the assist ends. -/
def execSignatureComplete (s : State) : Out :=
  .next (match s.mgmt.sigQueue with
    | [] => s
    | o :: rest =>
      let t := { s with mgmt := { s.mgmt with sigQueue := rest } }
      if o.kind = 0 then t.checkpointSigned o else t.documentSigned o)

/-! ### Sending (R538-R540, R543) -/

/-- Sends records in one datagram; none for an empty list. -/
def Mgmt.flush (m : Mgmt) (l : List Bytes) : Mgmt := if l.isEmpty then m else m.send (m.header 1 l.length ++ l.flatten)

/-- The seq of a record. -/
def recSeq (b : Bytes) : Nat := bytesAt b 0 4

/-- Whether a record may not join a datagram: it holds 16 records, or a higher seq (R539). -/
def startsNew (cur : List Bytes) (b : Bytes) : Bool :=
  decide (16 ≤ cur.length) || (match cur.getLast? with
    | some p => decide (recSeq b ≤ recSeq p)
    | none => false)

/-- Sends held records and signatures in order (R543). -/
def Mgmt.sendHeld (m : Mgmt) (cur : List Bytes) : List Rec → Mgmt
  | [] => m.flush cur
  | r :: t =>
    let fresh := startsNew cur r.bytes
    let m := if fresh then m.flush cur else m
    let cur := (if fresh then [] else cur) ++ [r.bytes]
    if bytesAt r.bytes 4 1 = 3 ∧ m.sigs.any (fun e => !e.sent && signs r.bytes e.bytes) then
      ((m.flush cur).sendSig (signs r.bytes)).sendHeld [] t
    else m.sendHeld cur t

/-- What the management port sends when it next carries traffic (R543): the record of a device reset before the others (R515). -/
def State.releaseHeld (s : State) : State :=
  if s.mgmtSends then
    let m := s.mgmt
    let unsent := m.held.filter (fun r => !r.sent)
    let first (r : Rec) : Bool := urgent r.bytes
    let m := m.sendHeld [] (unsent.filter first ++ unsent.filter (fun r => !first r))
    let m := m.sigs.foldl (fun m _ => m.sendSig (fun _ => true)) m
    { s with mgmt := { m with held := m.held.map (fun (r : Rec) => { r with sent := true }) } }
  else s

/-- The ANNOUNCE datagram (R539). -/
def State.announcement (s : State) : Bytes :=
  let m := s.mgmt
  let oldest := match m.held.head? with
    | some r => recSeq r.bytes
    | none => 0
  m.header 3 0 ++ padTo m.identity 32 ++ le s.regs.devState 1 ++ zeros 3 ++ le (m.seqNext + 2 ^ 32 - 1) 4 ++ le oldest 4
    ++ le (m.held.filter (fun r => !r.sent)).length 4 ++ le m.chainStartMc 8 ++ zeros 8

/-- Sends ANNOUNCE when the port carries traffic (R540). -/
def State.announce (s : State) : State := if s.mgmtSends then { s with mgmt := s.mgmt.send s.announcement } else s

/-- ANNOUNCE_TIMER (R540). -/
def execAnnounceTimer (s : State) : Out := .next s.announce

/-- MANAGEMENT_PORT_UP (R540, R543): ANNOUNCE, then what was held. -/
def execManagementPortUp (s : State) : Out :=
  .next (if s.mgmt.portUp then s else (({ s with mgmt := { s.mgmt with portUp := true } }).announce).releaseHeld)

/-- MANAGEMENT_PORT_DOWN (R543): records are held unsent. -/
def execManagementPortDown (s : State) : Out := .next { s with mgmt := { s.mgmt with portUp := false } }

/-! ### Receiving (R537-R540) -/

/-- The MAC address of the management port (R537). -/
def Mgmt.mac (m : Mgmt) : Bytes := le 2 1 ++ (padTo m.identity 32).take 4 ++ le 0x20 1

/-- The interface part of its IPv6 addresses: modified EUI-64 of the MAC address (R537). -/
def Mgmt.interfaceId (m : Mgmt) : Bytes := zeros 1 ++ ((m.mac.drop 1).take 2) ++ [0xFF, 0xFE] ++ m.mac.drop 3

/-- Its addresses: link-local, then one for each prefix that a router has advertised (R537). -/
def Mgmt.addresses (m : Mgmt) : List Bytes :=
  ([0xFE, 0x80] ++ zeros 6 ++ m.interfaceId) :: m.prefixes.map (fun p => (le p 8).reverse ++ m.interfaceId)

/-- Whether a datagram reaches the management processor and is one of a type and length (R537-R539). -/
def State.accepts (s : State) (d : Datagram) (typ len : Nat) : Bool :=
  s.mgmtSends && decide (d.bytes.length = len ∧ bytesAt d.bytes 0 2 = 0x504D ∧ bytesAt d.bytes 2 1 = 1 ∧ bytesAt d.bytes 3 1 = typ)

/-- SUBSCRIBE (R540): at most four subscribers. -/
def execSubscribe (d : Datagram) (s : State) : Out :=
  .next (if s.accepts d 4 16 ∧ ¬ s.mgmt.subscribers.contains d.src ∧ s.mgmt.subscribers.length < 4 then
      { s with mgmt := { s.mgmt with subscribers := s.mgmt.subscribers ++ [d.src] } }
    else s)

/-- SUBSCRIPTION_EXPIRY (R540). -/
def execSubscriptionExpiry (src : Nat) (s : State) : Out :=
  .next { s with mgmt := { s.mgmt with subscribers := s.mgmt.subscribers.filter (fun d => d != src) } }

/-- Sends one datagram to one collector. -/
def Mgmt.sendTo (m : Mgmt) (dst : Nat) (l : List Bytes) : Mgmt :=
  if l.isEmpty then m else { m with out := m.out ++ [(dst, m.header 1 l.length ++ l.flatten)] }

/-- Sends records to one collector, in datagrams of ascending seq. -/
def Mgmt.answer (m : Mgmt) (dst : Nat) (cur : List Bytes) : List Bytes → Mgmt
  | [] => m.sendTo dst cur
  | b :: t => if startsNew cur b then (m.sendTo dst cur).answer dst [b] t else m.answer dst (cur ++ [b]) t

/-- RESEND (R540): the held records of the range, to the source alone. -/
def execResend (d : Datagram) (s : State) : Out :=
  let first := bytesAt d.bytes 16 4
  let count := bytesAt d.bytes 20 2
  .next (if s.accepts d 5 24 ∧ 1 ≤ count ∧ count ≤ 4096 then
      let l := (s.mgmt.held.map (·.bytes)).filter (fun b => decide (first ≤ recSeq b ∧ recSeq b < first + count))
      { s with mgmt := s.mgmt.answer d.src [] l }
    else s)

/-- ROUTER_ADVERTISEMENT (R537): a prefix gives the port a global address. -/
def execRouterAdvertisement (pfx : Nat) (s : State) : Out :=
  .next (if s.mgmtSends ∧ ¬ s.mgmt.prefixes.contains pfx then
      { s with mgmt := { s.mgmt with prefixes := s.mgmt.prefixes ++ [pfx] } }
    else s)

/-! ### Correction windows (R535) -/

/-- CORRECTED_WINDOW_END (R535): a second record carries the corrections of a window in which more than one happened; the
location that it names is free (log 48, DESIGN CHOICE). -/
def execCorrectedWindowEnd (u : UnitRef) (mem : Nat) (s : State) : Out :=
  let key := (u.kind * 2 ^ 32 + u.n) * 16 + mem
  let n := Map.get 0 s.mgmt.windows key
  .next (
    let t := { s with mgmt := { s.mgmt with windows := Map.set 0 s.mgmt.windows key 0 } }
    if 2 ≤ n then
      let loc := if mem = 7 ∨ mem = 9 then 0 else t.draw.1 % 2 ^ 64
      t.draw.2.post { RecSpec.event Config.clsCorrected u.kind u.n (le mem 1 ++ zeros 7 ++ le loc 8 ++ le n 4) with action := 1 }
    else t)

end Sys2Proof.Machine
end

