-- ==== Sys2Proof/Machine/Reset.lean ====
section
/-! DEFINITION. Entry to FAILED, trips, device resets and module resets, and the control connector's outputs (R444, R485, R501,
R504, R507, R508, R515, R544, R578, R584). -/

namespace Sys2Proof.Machine

/-! ### Clusters that lose their clocks (R483, R599) -/

/-- A cluster after a device or module reset: its sensors and amplitude detectors go on (R457, R479). -/
def Cluster.rebooted (k : Nat) (x : Cluster) : Cluster :=
  let y := x.unfed k
  { Cluster.init with qual0 := y.qual0, qual1 := y.qual1, second := y.second, temp0 := x.temp0, temp1 := x.temp1 }

/-- A table of clusters with each changed. -/
def mapClusters (m : Map Cluster) (g : Nat → Cluster → Cluster) : Map Cluster :=
  m.foldl (fun (l : Map Cluster) (e : Nat × Cluster) => Map.set Cluster.init l e.1 (g e.1 e.2)) []

/-- Every core rail is off: cores, routers and island clocks are gone; the routers' counters stay (R268, R485). -/
def State.coreRailsOff (s : State) : State :=
  { s with
    cores := []
    routers := s.routers.map (fun (e : Nat × Router) => (e.1, e.2.lost))
    clusters := mapClusters s.clusters (fun k x => x.halted.unfed k)
    fields := s.fields.map (fun (e : Nat × Field) => (e.1, { e.2 with powered := false })) }

/-- The near tier stops without self-refresh: its contents are lost (R485); what its bytes then read as cannot be observed before a
device reset. -/
def State.nearTierOff (s : State) : State :=
  { s with stations := s.stations.map (fun (e : Nat × Station) => (e.1, { e.2 with
      mem := e.2.mem.filter (fun c => decide (bufferBase ≤ c.1)), comb := [], selfRefresh := false })) }

/-! ### FAILED (R444) -/

/-- Whether an outstanding command cannot finish once the device has FAILED. -/
def Cmd.cutShort (c : Cmd) : Bool :=
  !(decide (c.opcode = 0x0004 ∨ c.opcode = 0x000C ∨ c.opcode = 0x000E ∨ c.opcode = 0x100C))

/-- Ends a ring's commands that cannot finish with ABORTED. -/
def State.abortRing (s : State) (r : Nat) : State :=
  s.forAll ((s.ring r).cmds.filter (·.cutShort)) (fun s c =>
    if c.parts.isEmpty then s.finish r c (Compl.bare Config.aborted)
    else
      let c' := { c with parts := c.parts.map (fun (p : Part) => if p.done.isSome then p else { p with done := some Config.aborted }) }
      (s.putCmd r c').finishParts r c' true)

/-- The device enters FAILED: a RUNNING forme keeps its state, and its RUN ends with ABORTED (R279, R444, log 49, DEDUCED). -/
def State.enterFailed (s : State) : State :=
  let s := s.forAll ((List.range 64).filter (fun f => decide ((s.forme f).state = 3))) (fun s f =>
    (s.endSegment f true).updForme f (fun x => { x with
      status := Config.aborted, faultClass := 0, faultCore := none, faultCode := 0, halting := false }))
  let s := { s with regs := { s.regs with devState := Dev.failed } }
  s.forAll (List.range 72) State.abortRing

/-- A trip: rails off, near tier lost, FAILED, TRIP_L low (R485, R578, R584). -/
def State.trip (s : State) : State :=
  let s := s.coreRailsOff.nearTierOff
  let s := if s.regs.devState = Dev.failed then s else s.enterFailed
  { s with power := { s.power with tripLatched := true } }

/-- A module trip for heat: posted as THERMAL_WARN with status THERMAL and flag TRIP, and the waves wait 60 s (R485, R534). -/
def State.moduleTrip (s : State) (fd : Nat) (detail : Bytes) : State :=
  let s := s.trip.post { RecSpec.event Config.clsThermalWarn 3 fd detail with status := Config.thermal, flags := 8 }
  { s with power := { s.power with tripWait := true, heatTrip := true } }

/-- An input trip (R578). -/
def State.inputTrip (s : State) : State :=
  let s := s.trip.post { RecSpec.event Config.clsPowerCap 9 0 (le s.regs.powerCap 2 ++ le s.regs.powerInput 2) with
    status := Config.faultCode, flags := 8 }
  { s with power := { s.power with wavesHeld := true } }

/-- Bring-up ends in FAILED with an item and a status in MAILBOX_ERR; every core rail is off (R492, R496). -/
def State.bringupFails (s : State) (item status : Nat) : State :=
  let s := s.coreRailsOff
  ({ s with regs := { s.regs with errItem := item, errStatus := status } }).enterFailed

/-! ### Device reset (R501, R507, R544) -/

/-- The management processor after a device reset: it keeps its record buffer, the records that no chain holds yet, and what the old
chain was (R15, R544). -/
def Mgmt.rebooted (m : Mgmt) : Mgmt :=
  { Mgmt.init with
    early := m.early, held := m.held, sigs := m.sigs, portUp := m.portUp, out := m.out
    oldChain := if m.started then some (m.chain, m.seqNext - 1) else m.oldChain }

/-- The register file after a device reset (R395, R408). -/
def Regs.rebooted (r : Regs) : Regs :=
  { Regs.init with
    rom := r.rom &&& 0xFFFF0000, flags := r.flags, flagsCnt := r.flagsCnt, regErr := r.regErr }

/-- A feeder port after a reset: OFF, its counters clear; it never draws the same epoch again at once (R351, R352, R383). -/
def FPort.rebooted (p : FPort) : FPort := { FPort.init with epoch := p.epoch, sent := p.sent }

/-- FEEDER_LINK for each port that a device reset takes to OFF (R351); the table of R534 gives no reason code for it, so its reason is free
(log 8, DESIGN CHOICE). -/
def State.postPortsOff (s : State) (l : List Nat) : State :=
  s.forAll l (fun s p =>
    let d := s.draw
    d.2.postLink p 0 (d.1 % 256))

/-- A device reset: compute, fabric, near tier and ports are off, every command is forgotten, and BOOT_ROM runs (R507). -/
def State.rebootDevice (s : State) : State :=
  State.postPortsOff { State.reset with
    pending := s.pending
    clusters := mapClusters s.clusters Cluster.rebooted
    fports := s.fports.map (fun (e : Nat × FPort) => (e.1, e.2.rebooted))
    bays := s.bays.map (fun (e : Nat × Bay) => (e.1, { e.2 with ops := [], asms := [] }))
    phys := s.phys
    mgmt := s.mgmt.rebooted
    regs := s.regs.rebooted
    clocks := { Clocks.init with pinQualified := s.clocks.pinQualified, repeaters := s.clocks.repeaters }
    power := { s.power with capHeld := false, heatTrip := false }
    hostMem := s.hostMem
    hostPoison := s.hostPoison
    msix := s.msix
    free := s.free } ((s.fports.filter (fun e => e.2.link != 0)).map (·.1))

/-- Whether the module has standby power and is not held in module reset. -/
def State.awake (s : State) : Bool := s.power.standby && !s.power.resetLow

/-- DEVICE_RESET (R507, R512): `ram` is the byte of the management processor's RAM whose uncorrectable error causes it, if one does. -/
def execDeviceReset (s : State) (ram : Option Nat := none) : Out :=
  let noted := match ram with
    | some loc => s.post { RecSpec.event Config.clsUncorrected 9 0 (le 6 1 ++ zeros 7 ++ le loc 8) with action := 3 }
    | none => s
  .next (if s.awake then noted.rebootDevice else s)

/-- RESET_DEVICE_CONTAINMENT (R515): the UNCORRECTED record has been sent, or 2^20 mc have passed. -/
def execResetDeviceContainment (s : State) : Out := .next (if s.awake ∧ s.mgmt.resetWait then s.rebootDevice else s)

/-! ### Module reset (R504, R508) -/

/-- A module reset: nothing is kept but what lies outside the module, the silicon, and the state of its inputs.  Both host links are
down until the release. -/
def State.rebootModule (s : State) : State :=
  { State.reset with
    pending := s.pending
    clusters := mapClusters s.clusters Cluster.rebooted
    fports := s.fports.map (fun (e : Nat × FPort) => (e.1, { FPort.init with sent := e.2.sent }))
    bays := s.bays.map (fun (e : Nat × Bay) => (e.1, { Bay.init with die := e.2.die }))
    phys := s.phys
    mgmt := { Mgmt.init with out := s.mgmt.out }
    regs := { Regs.init with rom := s.regs.rom &&& 0xFFFF0000 }
    clocks := { Clocks.init with pinQualified := s.clocks.pinQualified, repeaters := s.clocks.repeaters }
    power := { s.power with tripLatched := false, capHeld := false, heatTrip := false }
    hostMem := s.hostMem
    hostPoison := s.hostPoison
    msix := s.msix
    free := s.free }

/-! ### The control connector's outputs (R584) -/

/-- PRSNT_L, which the module straps low, PWR_OK, READY, FAULT_L and TRIP_L as levels (R582, R584). -/
structure Pins where
  prsntL : Bool
  pwrOk : Bool
  ready : Bool
  faultL : Bool
  tripL : Bool
deriving DecidableEq, Repr

/-- The outputs that a state drives. -/
def State.pins (s : State) : Pins :=
  { prsntL := false, pwrOk := s.power.pwrOk && decide (s.power.input = 1), ready := s.awake && s.operating
    faultL := !(s.awake && decide (s.regs.devState = Dev.failed)), tripL := !(s.awake && s.power.tripLatched) }

end Sys2Proof.Machine
end

