-- ==== Sys2Proof/Machine/Bundle.lean ====
section
/-! DEFINITION. The boot bundle and its checks, the start of the boot, the identity and the start of the record chain (R33-R39, R487-R490,
R526, R529, R530, R541, R544, R563-R571, R581). -/

namespace Sys2Proof.Machine

/-! ### The bundle (R487, R488) -/

/-- A number in the bundle. -/
def State.bundle (s : State) (off n : Nat) : Nat := s.hostNat (s.boot.addr + off) n

/-- The bytes of the directory entry `i`: kind, rsv, length, offset. -/
def State.dirEntry (s : State) (i : Nat) : Nat × Nat × Nat × Nat :=
  let o := 64 + 16 * i
  (s.bundle o 2, s.bundle (o + 2) 2, s.bundle (o + 4) 4, s.bundle (o + 8) 8)

/-- The directory. -/
def State.directory (s : State) : List (Nat × Nat × Nat × Nat) := (List.range (s.bundle 6 2)).map s.dirEntry

/-- Whether a directory entry is good. -/
def dirOk (len : Nat) (e : Nat × Nat × Nat × Nat) : Bool :=
  decide (1 ≤ e.1 ∧ e.1 ≤ 7 ∧ e.2.1 = 0 ∧ e.2.2.2 % 64 = 0 ∧ e.2.2.2 + e.2.2.1 ≤ len)

/-- Whether the header and the directory are good (R487, R488). -/
def State.headerOk (s : State) : Bool :=
  let len := s.boot.len
  let n := s.bundle 6 2
  let kinds : List Nat := s.directory.map (fun e => e.1)
  decide (s.boot.addr % 64 = 0 ∧ s.bundle 0 4 = 0x4C444E42 ∧ s.bundle 4 2 = 1 ∧ 3 ≤ n ∧ n ≤ 7 ∧ s.bundle 8 8 = len ∧ 64 + 16 * n ≤ len
      ∧ s.bundle 16 4 < 2 ∧ s.bundle 20 4 = 0 ∧ s.bundle 24 8 % 64 = 0 ∧ s.bundle 36 28 = 0)
    && s.directory.all (dirOk len) && decide (kinds.Nodup) && [2, 3, 4].all (fun k => kinds.contains k)

/-- The bytes of the item of a kind, when the bundle has one. -/
def State.item (s : State) (kind : Nat) : Option Bytes :=
  (s.directory.find? (fun e => e.1 == kind)).map (fun e => s.hostRead (s.boot.addr + e.2.2.2) e.2.2.1)

/-! ### The vendor's items (R563, R565-R568) -/

/-- Whether a vendor public key is the one that the ROM trusts and a signature verifies under it (R563). -/
def State.vendorSigned (s : State) (pk body sig : Bytes) : Bool :=
  decide (sha256 pk = s.phys.vendorHash) && Config.vendorVerify pk body sig

/-- The status that rejects a ROM patch, if any (R490, R565). -/
def State.patchRefused (s : State) (b : Bytes) : Option Nat :=
  let n := bytesAt b 12 4
  let form := decide (b.length = 64 + n + Config.vendorSigLen ∧ n % 64 = 0 ∧ 64 ≤ n ∧ n ≤ 196608 ∧ bytesAt b 0 4 = 0x48544150
      ∧ bytesAt b 4 2 = 1 ∧ bytesAt b 6 2 ≠ 0) && zeroAt b 10 2 && zeroAt b 16 16
  if ¬ form then some Config.badArg
  else if ¬ s.vendorSigned ((b.drop 32).take 32) (b.take (64 + n)) (b.drop (64 + n)) then some Config.sigFail
  else if bytesAt b 8 2 ≠ s.phys.rom then some Config.badArg
  else none

/-- What each part has: build, fields, ports, bays, units and the power maximum (R567). -/
def partRow (part : Nat) : Option (Nat × Nat × Nat × Nat × Nat × Nat) :=
  match part with
  | 1 => some (0, 56, 16, 3, 0x8, 115)
  | 2 => some (1, 56, 16, 3, 0xF, 115)
  | 3 => some (1, 42, 12, 3, 0xF, 90)
  | 4 => some (1, 28, 8, 1, 0x7, 62)
  | _ => none

/-- The fields of a mask that border a set of fields, and that set. -/
def spread (mask : Nat) (l : List Nat) : List Nat :=
  (maskList mask 56).filter (fun f => l.any (fun g =>
    decide (f = g ∨ (f / 8 = g / 8 ∧ (f = g + 1 ∨ g = f + 1)) ∨ f = g + 8 ∨ g = f + 8)))

/-- The fields that F24 reaches over the edges of enabled fields. -/
def joinedFields (mask : Nat) : List Nat := (List.range 56).foldl (fun l _ => spread mask l) (if mask.testBit 24 then [24] else [])

/-- Whether the enabled fields and ports obey R33. -/
def fieldsJoin (part fields ports : Nat) : Bool :=
  decide (part ≤ 2 ∨ (joinedFields fields).length = (maskList fields 56).length) && fields.testBit 24
    && (decide (part ≠ 3) || fields.testBit 31) && (maskList ports 16).all (fun p => fields.testBit (portField p))

/-- Whether an enablement record agrees with R33, R566, R567 and R581. -/
def State.enableOk (s : State) (b : Bytes) : Bool :=
  let part := bytesAt b 6 1
  let fields := bytesAt b 16 8
  let ports := bytesAt b 24 2
  let bays := bytesAt b 26 1
  decide (bytesAt b 8 8 = s.phys.serial ∧ bytesAt b 0 4 = 0x4C424E45 ∧ bytesAt b 4 2 = 1) && zeroAt b 30 2
    && (match partRow part with
        | none => false
        | some (build, nf, np, bs, units, cap) => decide (bytesAt b 7 1 = build ∧ build = b2n s.phys.stacked ∧ fields < 2 ^ 56
            ∧ (maskList fields 56).length = nf ∧ (maskList ports 16).length = np ∧ bays = bs ∧ bytesAt b 27 1 = units
            ∧ bytesAt b 28 2 = cap))
    && fieldsJoin part fields ports && bays.testBit s.regs.bootBay

/-- The status that rejects an enablement record, if any (R490). -/
def State.enableRefused (s : State) (b : Bytes) : Option Nat :=
  if b.length ≠ 64 + Config.vendorSigLen then some Config.badArg
  else if ¬ s.vendorSigned ((b.drop 32).take 32) (b.take 64) (b.drop 64) then some Config.sigFail
  else if ¬ s.enableOk b then some Config.badArg
  else none

/-- What an accepted enablement record enables. -/
def enableOf (b : Bytes) : Enable :=
  { part := bytesAt b 6 1, fields := bytesAt b 16 8, ports := bytesAt b 24 2, bays := bytesAt b 26 1, units := bytesAt b 27 1
    maxCap := bytesAt b 28 2, signed := b.take 64, vendorPk := (b.drop 32).take 32 }

/-- Whether the identity record is good, apart from the identity itself (R568). -/
def State.identityItemOk (s : State) (b : Bytes) : Bool :=
  decide (b.length = 10000 ∧ bytesAt b 0 4 = 0x54494449 ∧ bytesAt b 4 2 = 1 ∧ bytesAt b 8 8 = s.phys.serial ∧ bytesAt b 16 4 = 2048)
    && zeroAt b 6 2 && zeroAt b 20 12 && s.vendorSigned ((b.drop 64).take 32) (b.take 2144) (b.drop 2144)

/-! ### Hellbox parts (R35-R39) -/

/-- An entry of a part (R36). -/
def hbEntryOf (part : Nat) (b : Bytes) : HbEntry :=
  { kind := bytesAt b 0 1, field := bytesAt b 1 1, col := bytesAt b 2 1, row := bytesAt b 3 1, dir := bytesAt b 4 1
    origin := bytesAt b 5 1, part := part }

/-- Whether an entry holds no reserved value (R36, R37). -/
def hbEntryOk (b : Bytes) : Bool :=
  let e := hbEntryOf 0 b
  decide (1 ≤ e.kind ∧ e.kind ≤ 3 ∧ e.field < 56 ∧ e.origin ≤ 5) && zeroAt b 6 2
    && (if e.kind = 3 then decide (e.col < 16 ∧ e.row < 16) else decide (e.col < 64 ∧ e.row < 66))
    && (if e.kind = 2 then decide (e.dir < 4) else decide (e.dir = 0))

/-- The entries of a part's bytes, 8 bytes each. -/
def hbEntries (part : Nat) (b : Bytes) : List HbEntry :=
  (List.range (bytesAt b 16 4)).map (fun i => hbEntryOf part ((b.drop (64 + 8 * i)).take 8))

/-- The status that rejects a hellbox part, if any (R39): `part` 0 factory, 1 additions; `ident` the identity it must name. -/
def State.hbRefused (s : State) (b : Bytes) (part sigLen : Nat) (ident : Bytes) (verify : Bytes → Bytes → Bool) : Option Nat :=
  let n := bytesAt b 16 4
  let size := 64 + 8 * n
  if 4096 < n ∨ b.length ≠ size + sigLen then some Config.badArg
  else if ¬ verify (b.take size) (b.drop size) then some Config.sigFail
  else if bytesAt b 0 4 = 0x31584248 ∧ bytesAt b 4 2 = 1 ∧ bytesAt b 6 1 = part ∧ bytesAt b 8 8 = s.phys.serial
      ∧ (b.drop 24).take 32 = ident ∧ zeroAt b 7 1 ∧ zeroAt b 20 4 ∧ zeroAt b 56 8
      ∧ (List.range n).all (fun i => hbEntryOk ((b.drop (64 + 8 * i)).take 8)) then none
  else some Config.badArg

/-! ### Starting the boot (R401, R490) -/

/-- The boot ends before any field is powered: the device returns to AWAIT_HOST (R490). -/
def State.bootFails (s : State) (item status : Nat) : State :=
  ({ s with regs := { s.regs with devState := Dev.awaitHost, errItem := item, errStatus := status } }).setStatus 1

/-- An item that does not end the boot is ignored, and noted in MAILBOX_ERR (R490). -/
def State.noteItem (s : State) (item status : Nat) : State :=
  { s with regs := { s.regs with errItem := item, errStatus := status } }

/-- Step 1 begins: BRINGUP, with the PUF unit clocked (R398, R491). -/
def State.enterBringup (s : State) (bay : Nat) : State :=
  { s with
    regs := { s.regs with
      devState := Dev.bringup, step := 2, quick := false, bootBay := bay, errItem := 0, errStatus := 0
      rom := s.regs.rom &&& 0xFFFF0000, helperEn := s.regs.helperEn ||| 0x4000 }
    boot := { Boot.init with addr := s.regs.bootAddr, len := s.regs.bootLen }
    hellbox := []
    columns := []
    plan := Plan.init }

/-- A ROM patch that is accepted: its version and the digest of its signed bytes (R565, R572). -/
def State.takePatch (s : State) (b : Bytes) : State :=
  { s with
    regs := { s.regs with rom := s.regs.rom ||| BitVec.ofNat 32 (bytesAt b 6 2) }
    boot := { s.boot with patchDigest := sha256 (b.take (64 + bytesAt b 12 4)) } }

/-- The enablement record is accepted: ID_PART and the CAP_ registers take their values (R396, R490); LX28-S has no proof recorder
(R2, R397, R546). -/
def State.takeEnable (s : State) (b : Bytes) : State :=
  let e := enableOf b
  let s := { s with enable := some e, regs := { s.regs with part := e.part } }
  let present : BitVec 32 := if e.part = 4 then 0x7BFF else 0x7FFF
  { s with regs := { s.regs with helperPresent := present, helperEn := s.regs.helperEn &&& present } }

/-- The checks of the header, the patch and the enablement record (R490 orders 1-3); the identity record follows when the key has
been derived. -/
def State.checkBundle (s : State) : State :=
  if ¬ s.headerOk then s.bootFails 0 Config.badArg
  else
    let s := { s with boot := { s.boot with
      quickAsked := decide (s.bundle 16 4 = 1), reportAddr := s.bundle 24 8, reportCap := s.bundle 32 4 } }
    let patch := s.item 1
    match patch.bind s.patchRefused with
    | some st => s.bootFails 1 st
    | none =>
      let s := match patch with
        | some b => s.takePatch b
        | none => s
      let b := (s.item 2).getD []
      match s.enableRefused b with
      | some st => s.bootFails 2 st
      | none => s.takeEnable b

/-- The write that completes MAILBOX_BOOT (R401). -/
def State.startBoot (s : State) (bay : Nat) : State := (s.enterBringup bay).checkBundle

/-! ### The chain starts (R541, R542, R544) -/

/-- The closing checkpoint of the chain of before a device reset (R544). -/
def State.closeOldChain (s : State) : State :=
  match s.mgmt.oldChain with
  | none => s
  | some (c, last) =>
    let d := s.draw
    let mc := d.1 % 2 ^ 64
    let n := (last + 1) % 2 ^ 32
    let r : RecSpec := {
      kind := 3, cls := 0, status := 0, code := 0, forme := none, unitKind := 0, action := 0, flags := 0, unit := 0, detail := c }
    let b := r.bytes n mc
    let m := d.2.mgmt
    { d.2 with mgmt := { m with
        oldChain := none
        held := lastN (m.held ++ [({ bytes := b, sent := false } : Rec)]) Config.heldRecords
        evDropped := m.evDropped + (if m.evHold.length ≥ Config.heldRecords then 1 else 0)
        evHold := lastN (m.evHold ++ [b]) Config.heldRecords
        checkPending := true
        sigQueue := m.sigQueue ++ [⟨0, n, 0, padTo m.identity 32 ++ le n 4 ++ c ++ le mc 8⟩] } }

/-- The chain starts with the identity: its start record, the records detected earlier, and the first checkpoint (R541, R542).  All of
them pass through the buffer of held records, so of the earlier ones the last 4,096 are sent, after what is left of the old chain and in
order (R15, R543, R544). -/
def State.startChain (s : State) : State :=
  if s.mgmt.started then s
  else
    let s := s.closeOldChain
    let d := s.draw
    let mc := d.1 % 2 ^ 64
    let early := d.2.mgmt.early
    let s := { d.2 with mgmt := { d.2.mgmt with
      started := true, early := [], seqNext := 0, chain := zeros 32, chainStartMc := mc } }
    let start : RecSpec := {
      kind := 4, cls := 0, status := 0, code := 0, forme := none, unitKind := 0, action := 0, flags := 0, unit := 0
      detail := s.mgmt.identity }
    let s := s.chainWith false (start.bytes 0 mc)
    let s := (s.forAll early (fun s b => s.chainWith false (le s.mgmt.seqNext 4 ++ b.drop 4))).releaseHeld
    ({ s with mgmt := { s.mgmt with sinceCheck := max s.mgmt.sinceCheck 256 } }).tryCheckpoint 256

/-! ### The identity (R569, R570) and the rest of the bundle (R490, R499, R526, R530) -/

/-- The public key of a PUF value: PK.seed, then PK.root (R569). -/
def pufPublicKey (k : BitVec 256) : Bytes :=
  (sha256 (le k.toNat 32 ++ [2])).take 16 ++ (List.range 16).map (Config.slhPublicByte k)

/-- The identity is written, its key kept, and the PUF unit stopped (R398, R570). -/
def State.takeIdentity (s : State) (k : BitVec 256) : State :=
  let pk := pufPublicKey k
  ({ s with
    regs := { s.regs with helperEn := s.regs.helperEn &&& 0x3FFF }
    mgmt := { s.mgmt with identity := sha256 pk, publicKey := pk, key := some k } }).startChain

/-- Hellbox entries join those of the device, and every column takes its dead rows (R26). -/
def State.takeEntries (s : State) (part : Nat) (b : Bytes) : State :=
  ({ s with hellbox := s.hellbox ++ hbEntries part b }).recompute 64

/-- The additions part is checked (R39, R490). -/
def State.checkAdditions (s : State) : State :=
  match s.item 5 with
  | none => s
  | some b =>
    match s.hbRefused b 1 Config.identitySigLen (padTo s.mgmt.identity 32) (Config.identityVerify s.mgmt.publicKey) with
    | some st => s.noteItem 5 st
    | none => let t := s.takeEntries 1 b
      { t with boot := { t.boot with additionsOk := true } }

/-- The leading plan is checked, and its chain continues from its own fields (R526, R530). -/
def State.checkPlan (s : State) : State :=
  match s.item 6 with
  | none => s
  | some b =>
    let g : Rd := fun off n => bytesAt b off n
    if b.length = planLen ∧ s.planOk g s.enabledMask then
      let t := ({ s with plan := planOf g s.enabledMask }).chainPlan
      { t with boot := { t.boot with planOk := true } }
    else s.noteItem 6 Config.badArg

/-- Whether an ageing item names the bundle's plan (R529, R530). -/
def State.ageingOk (s : State) (b : Bytes) : Bool :=
  s.boot.planOk && decide (b.length = 64 ∧ bytesAt b 0 4 = 0x48454741 ∧ bytesAt b 4 2 = 1 ∧ bytesAt b 8 8 = s.phys.serial
      ∧ bytesAt b 16 4 = s.plan.histPlans ∧ b.drop 32 = s.plan.histHead) && zeroAt b 6 2 && zeroAt b 20 12

/-- The ageing item is checked; a rejected one rejects the plan with it (R530). -/
def State.checkAgeing (s : State) : State :=
  match s.item 7 with
  | none => s
  | some b =>
    if s.ageingOk b then s
    else ({ s with plan := Plan.init, boot := { s.boot with planOk := false } }).noteItem 7 Config.badArg

/-- Step 2: the optional items, the choice of quick start, and the expected topology (R490, R491, R497, R499). -/
def State.chooseStart (s : State) : State :=
  let s := ({ s with regs := { s.regs with step := 3 } }).checkAdditions.checkPlan.checkAgeing
  { s with
    regs := { s.regs with quick := s.boot.quickAsked && s.boot.additionsOk && s.boot.planOk }
    boot := { s.boot with expectedHb := s.hellbox.length } }

/-- The factory part, and what follows it (R490 order 5). -/
def State.takeFactory (s : State) : State :=
  let b := (s.item 4).getD []
  let pk := match s.enable with
    | some e => e.vendorPk
    | none => []
  match s.hbRefused b 0 Config.vendorSigLen (zeros 32) (Config.vendorVerify pk) with
  | some st => s.bootFails 4 st
  | none => (({ s with boot := { s.boot with factory := b } }).takeEntries 0 b).chooseStart

/-- IDENTITY_DERIVATION (R490, R569, R570): the PUF unit gives `k`; the self-test of the key passes or fails. -/
def execIdentityDerivation (k : BitVec 256) (selfTest : Bool) (stores : List HostStore) (s : State) : Out :=
  let s := s.hostStores stores
  .next (if s.awake ∧ s.regs.devState = Dev.bringup ∧ s.regs.step = 2 ∧ (s.bay s.regs.bootBay).width ≠ 0 then
      let b := (s.item 3).getD []
      if s.identityItemOk b ∧ sha256 (pufPublicKey k) = (b.drop 32).take 32 ∧ selfTest then (s.takeIdentity k).takeFactory
      else s.bootFails 3 Config.sigFail
    else s)

end Sys2Proof.Machine
end

