-- ==== Sys2Proof/Machine/HostRegs.lean ====
section
/-! DEFINITION. BAR0: the register file, its access rules and the effect of every write (R9-R11, R392-R409, R453, R581). -/

namespace Sys2Proof.Machine

/-! ### The registers (R393-R408) -/

/-- A register of BAR0. `ringReg` names a ring and the offset in its set-up block. -/
inductive BarReg where
  | idPart | idRom | identity (n : Nat) | capFields | capPorts | capUnits | capCores | capStations | capLink
  | helperEn | helperLock | helperPresent
  | boot | bootLen | mailState | mailErr
  | ringReg (r off : Nat)
  | containment | powerCap | powerInput
  | statusFlags | statusCnt | statusRegErr | statusReset
deriving DecidableEq, Repr

/-- The ring whose set-up block holds an offset (R402). -/
def ringBlock (off : Nat) : Option Nat :=
  if 0x3000 ≤ off ∧ off < 0x4200 then some ((off - 0x3000) / 64)
  else if 0x5000 ≤ off ∧ off < 0x50C0 then some (72 + (off - 0x5000) / 64)
  else none

/-- The register that starts at an offset, and its bytes. -/
def barAt (off : Nat) : Option (BarReg × Nat) :=
  match ringBlock off with
  | some r =>
    let o := off % 64
    if o = 0 ∨ o = 8 ∨ o = 16 ∨ o = 24 then some (.ringReg r o, 8)
    else if o = 32 ∨ o = 36 ∨ o = 40 then some (.ringReg r o, 4)
    else none
  | none =>
    match off with
    | 0x0000 => some (.idPart, 4) | 0x0004 => some (.idRom, 4)
    | 0x0020 => some (.identity 0, 8) | 0x0028 => some (.identity 1, 8)
    | 0x0030 => some (.identity 2, 8) | 0x0038 => some (.identity 3, 8)
    | 0x0100 => some (.capFields, 8) | 0x0108 => some (.capPorts, 4) | 0x010C => some (.capUnits, 4)
    | 0x0110 => some (.capCores, 4) | 0x0114 => some (.capStations, 4) | 0x0118 => some (.capLink, 4)
    | 0x1000 => some (.helperEn, 4) | 0x1004 => some (.helperLock, 4) | 0x1008 => some (.helperPresent, 4)
    | 0x2000 => some (.boot, 8) | 0x2008 => some (.bootLen, 4) | 0x200C => some (.mailState, 4) | 0x2010 => some (.mailErr, 4)
    | 0x6000 => some (.containment, 4) | 0x6004 => some (.powerCap, 4) | 0x6008 => some (.powerInput, 4)
    | 0x7000 => some (.statusFlags, 4) | 0x7004 => some (.statusCnt, 4) | 0x7008 => some (.statusRegErr, 4)
    | 0x7010 => some (.statusReset, 4)
    | _ => none

/-- The helper that serves an offset; none for the management processor (R393). -/
def barHelper (off : Nat) : Option Nat :=
  if 0x3000 ≤ off ∧ off < 0x4200 then some 2
  else if 0x5000 ≤ off ∧ off < 0x5040 then some 3
  else if 0x5040 ≤ off ∧ off < 0x5080 then some 2
  else if 0x5080 ≤ off ∧ off < 0x50C0 then some 10
  else if 0x6000 ≤ off ∧ off < 0x6004 then some 8
  else if 0x6004 ≤ off ∧ off < 0x600C then some 5
  else none

/-- Whether an offset's block answers (R393). -/
def State.barServed (s : State) (off : Nat) : Bool :=
  match barHelper off with
  | some h => s.helperOn h && s.regs.helperPresent.getLsbD h
  | none => true

/-- Whether an access ends in a completer abort (R392, R393). -/
def State.barAborts (s : State) (a : Bar0) : Bool :=
  !(decide (a.size = 4 ∨ a.size = 8) && decide (a.off % a.size = 0) && decide (a.off + a.size ≤ 2 ^ 20) && s.barServed a.off
    && s.barServed (a.off + a.size - 4))

/-- Whether an access reaches the device: the bay's link is up, and the bay presents its CXL device (R396, R581). -/
def State.barReaches (s : State) (a : Bar0) : Bool :=
  s.awake && decide ((s.bay a.bay).width ≠ 0) && (match s.enable with
    | some e => e.bays.testBit a.bay
    | none => true)

/-- What one access writes to one register: 0 all of it, 1 its lower half, 2 its upper half. -/
structure BarLane where
  reg : BarReg
  half : Nat
  value : Nat
deriving DecidableEq, Repr

/-- The part of a register that a 4-byte access touches. -/
def laneOf (off v : Nat) : List BarLane :=
  match barAt off with
  | some (r, n) => [⟨r, if n = 4 then 0 else 1, v⟩]
  | none =>
    match (if off < 4 then none else barAt (off - 4)) with
    | some (r, 8) => [⟨r, 2, v⟩]
    | _ => []

/-- What an access writes, in ascending offset (R392). -/
def Bar0.lanes (a : Bar0) : List BarLane :=
  let v := a.value % 2 ^ (8 * a.size)
  if a.size = 4 then laneOf a.off v
  else
    match barAt a.off with
    | some (r, 8) => [⟨r, 0, v⟩]
    | _ => laneOf a.off (v % 2 ^ 32) ++ laneOf (a.off + 4) (v / 2 ^ 32)

/-- A bad or ignored access: REGERR, with its bay and offset (R393, R394, R407). -/
def State.barError (s : State) (a : Bar0) : State :=
  let t := s.setStatus 0
  { t with regs := { t.regs with regErr := BitVec.ofNat 32 (a.off % 2 ^ 20 + 2 ^ 20 * (a.bay % 2)) } }

/-! ### Helpers, caps and status (R397-R399, R404-R408) -/

/-- Recording stops: open order records and fingerprints close with CUT (R398, R552, R562). -/
def State.stopRecording (s : State) : State :=
  let s := s.forAll (s.stations.map (·.1)) (fun s n => s.closeOrders n true (fun _ => true))
  let open' := s.recorder.fingers
  s.forAll open' (fun s f => s.closeFingers f.ring f.sq (if f.ring < 64 then some f.ring else none) 0 true)

/-- A write to HELPER_CLK_EN: whether a change was refused, and the state (R397, R398). -/
def State.writeHelpers (s : State) (v : Nat) : State × Bool :=
  let now := s.regs.helperEn
  let ask := BitVec.ofNat 32 (v % 2 ^ 15)
  if s.regs.devState = Dev.bootRom then (s, true)
  else
    let may := s.regs.helperPresent &&& ~~~s.regs.helperLock
    let next := (now &&& ~~~may) ||| (ask &&& may)
    let s := if now.getLsbD 10 && !next.getLsbD 10 then s.stopRecording else s
    let lock := if next.getLsbD 9 then s.regs.helperLock ||| 0x200 else s.regs.helperLock
    let t := { s with regs := { s.regs with helperEn := next, helperLock := lock } }
    (if next.getLsbD 9 && !now.getLsbD 9 then t.releaseHeld else t, decide (next ≠ ask))

/-- A write to POWER_CAP (R406). -/
def State.writeCap (s : State) (v : Nat) : State × Bool :=
  let cap := v % 128
  let most := match s.enable with
    | some e => e.maxCap
    | none => 0
  if s.operating ∧ 20 ≤ cap ∧ cap ≤ most then ({ s with regs := { s.regs with powerCap := cap } }, false) else (s, true)

/-! ### Ring set-up (R402, R403, R415) -/

/-- Why setting EN is refused, if it is: an address or a size code, the bay, or the device and ring state (R403, R415). -/
def State.enableRing (s : State) (r : Nat) : Option Nat :=
  let g := s.ring r
  let bad := decide (g.sbase % 4096 ≠ 0 ∨ g.dbline % 64 ≠ 0 ∨ g.cline % 64 ≠ 0 ∨ 13 ≤ wordAt g.cfg 11 8)
    || (decide (r < 72) && decide (g.cbase % 4096 ≠ 0 ∨ 13 ≤ wordAt g.cfg 15 12)) || (decide (r = 73 ∨ r = 74) && decide (g.size < 128))
  if bad then some Config.badArg
  else if s.enable.isSome ∧ ¬ s.bayPresent g.bayOf then some Config.absent
  else if ¬ s.operating ∨ g.state ≠ 0 then some Config.badState
  else none

/-- A ring as it starts: every index 0 (R415). -/
def Ring.started (g : Ring) : Ring :=
  { Ring.init with
    sbase := g.sbase, cbase := g.cbase, dbline := g.dbline, cline := g.cline, cfg := g.cfg ||| 1, irq := g.irq, err := g.err, state := 1 }

/-- EN is set: the ring starts and reads its line, or the refusal goes to err (R403, R415). -/
def State.setEn (s : State) (r : Nat) : State × Bool :=
  match s.enableRing r with
  | some e => (s.updRing r (fun g => { g with err := e }), true)
  | none => (((s.updRing r Ring.started).fetch r).takeConsumer r, false)

/-- The closed records of a report ring that is no longer enabled are not written, and their REPORTs complete with BADSTATE (R453). -/
def State.refuseReports (s : State) : State :=
  ({ s with reports := [] }).forAll s.reports (fun s p => s.answerReport p Config.badState 0)

/-- EN is cleared: entries not started are dropped, and the ring stops when its commands have completed (R403, R453). -/
def State.clearEn (s : State) (r : Nat) : State :=
  let s := if r = 74 ∧ s.recording then s.stopRecording else s
  let t := (s.updRing r (fun g => { g with
    cfg := g.cfg &&& 0xFFFFFFFE, entries := [], fences := [], state := if g.cmds.isEmpty then 0 else 2 })).settle allFences
  (if r = 73 then t.refuseReports else t).settleEnded

/-- The fields of RING_CFG that the host may write: bay, csize and ssize (R402). -/
def cfgMask (r : Nat) : Word := if r < 72 then 0x0002FF00 else 0x00020F00

/-- A write to RING_CFG. -/
def State.writeCfg (s : State) (r v : Nat) : State × Bool :=
  let g := s.ring r
  let w := BitVec.ofNat 32 v
  let en := g.cfg.getLsbD 0
  let ask := w.getLsbD 0
  let locked := en || decide (g.state ≠ 0)
  let refused := locked && decide (w &&& cfgMask r ≠ g.cfg &&& cfgMask r)
  let s := if locked then s else s.updRing r (fun g => { g with cfg := w &&& cfgMask r })
  if ask && !en then
    let t := s.setEn r
    (t.1, t.2 || refused)
  else if en && !ask then (s.clearEn r, refused)
  else (s, refused)

/-- A write to RING_IRQ, which resets the moderation counter (R453). -/
def State.writeIrq (s : State) (r v : Nat) : State :=
  s.updRing r (fun g => { g with irq := BitVec.ofNat 32 (v % 2 ^ 23), modCount := 0 })

/-- A ring address register with a new value. -/
def Ring.setAddr (g : Ring) (o v : Nat) : Ring :=
  match o with
  | 0 => { g with sbase := v }
  | 8 => { g with cbase := v }
  | 16 => { g with dbline := v }
  | _ => { g with cline := v }

/-- The value of a ring address register. -/
def Ring.addr (g : Ring) (o : Nat) : Nat :=
  match o with
  | 0 => g.sbase
  | 8 => g.cbase
  | 16 => g.dbline
  | _ => g.cline

/-! ### 64-bit registers (R392) -/

/-- A number for a register's held lower half. -/
def BarReg.key (r : BarReg) : Nat :=
  match r with
  | .ringReg n o => 64 * n + o + 1
  | _ => 0

/-- The whole value that a lane gives a 64-bit register, when it takes effect now, and the state that holds a lower half. -/
def State.join (s : State) (l : BarLane) (now : Nat) : State × Option Nat :=
  let k := l.reg.key
  let keep (n : Nat) : State := { s with regs := { s.regs with halves := Map.set 0 s.regs.halves k n } }
  if l.half = 1 then (keep (l.value + 2 ^ 32), none)
  else if l.half = 2 then
    let h := Map.get 0 s.regs.halves k
    (keep 0, some ((if h = 0 then now else h) % 2 ^ 32 + 2 ^ 32 * l.value))
  else (keep 0, some l.value)

/-! ### Writes -/

/-- A write to a register of a ring. -/
def State.writeRing (s : State) (l : BarLane) (r o : Nat) : State × Bool :=
  let g := s.ring r
  if o = 32 then s.writeCfg r l.value
  else if o = 36 then (s.writeIrq r l.value, false)
  else if o = 40 then (s, true)
  else if o = 8 ∧ 72 ≤ r then (s, false)
  else if g.cfg.getLsbD 0 ∨ g.state ≠ 0 then (s, true)
  else
    match s.join l (g.addr o) with
    | (t, some v) => (t.updRing r (fun g => g.setAddr o v), false)
    | (t, none) => (t, false)

/-- One lane's write, and whether the register ignores it (R394). -/
def State.writeLane (s : State) (bay : Nat) (l : BarLane) : State × Bool :=
  match l.reg with
  | .helperEn => s.writeHelpers l.value
  | .boot =>
    if s.regs.devState ≠ Dev.awaitHost then (s, true)
    else
      match s.join l s.regs.bootAddr with
      | (t, some v) => (({ t with regs := { t.regs with bootAddr := v } }).startBoot bay, false)
      | (t, none) => (t, false)
  | .bootLen => if s.regs.devState ≠ Dev.awaitHost then (s, true) else ({ s with regs := { s.regs with bootLen := l.value } }, false)
  | .ringReg r o => s.writeRing l r o
  | .containment => ({ s with regs := { s.regs with resetDefault := l.value.testBit 0 } }, false)
  | .powerCap => s.writeCap l.value
  | .statusFlags => ({ s with regs := { s.regs with flags := s.regs.flags &&& ~~~(BitVec.ofNat 32 l.value) } }, false)
  | .statusCnt => ({ s with regs := { s.regs with flagsCnt := BitVec.ofNat 32 l.value } }, false)
  | .statusReset => if l.value = 0x52455345 then (s.rebootDevice, false) else (s, true)
  | _ => (s, true)

/-- A write access, whole: its lanes in ascending offset, then REGERR once when any was ignored. -/
def State.barWrite (s : State) (a : Bar0) : State :=
  let t := a.lanes.foldl (fun (x : State × Bool) l => let y := x.1.writeLane a.bay l
                                                      (y.1, x.2 || y.2)) (s, false)
  if t.2 then t.1.barError a else t.1

/-! ### The rows -/

/-- The behaviours that have a row of their own. -/
inductive BarRow where
  | helper | boot | enable | disable | irq | containment | cap | reset | flags
deriving DecidableEq, Repr

/-- The row that a lane's write belongs to, if it has one of its own. -/
def State.rowOf (s : State) (l : BarLane) : Option BarRow :=
  match l.reg with
  | .helperEn => some .helper
  | .boot => if l.half = 1 then none else some .boot
  | .ringReg r 32 =>
    let en := (s.ring r).cfg.getLsbD 0
    if l.value.testBit 0 && !en then some .enable else if !l.value.testBit 0 && en then some .disable else none
  | .ringReg _ 36 => some .irq
  | .containment => some .containment
  | .powerCap => some .cap
  | .statusReset => some .reset
  | .statusFlags => some .flags
  | _ => none

/-- The setup bus and management processor clocks in MHz, which coast without a reference (R465). -/
def State.busMHz (s : State) : Nat × Nat := if s.clocks.pinQualified then (s.clocks.sbc, s.clocks.mpc) else (100, 200)

/-- Whether the setup bus and the management processor break the ratio limit of their clocks (R467). -/
def State.busRatioBroken (s : State) : Bool :=
  let q := s.busMHz
  decide (q.2 < q.1 ∨ 4 * q.1 < q.2)

/-- What is left of an access that crosses that boundary while its ratio is broken: nothing, the access as it was, or one whose data holds any
value (R468; log 76, DESIGN CHOICE). -/
def State.crossBus (s : State) (a : Bar0) : Option Bar0 × State :=
  if s.busRatioBroken then
    let n := Config.freeNat s.free
    (if n % 3 = 0 then none else if n % 3 = 1 then some a else some { a with value := n / 3 }, { s with free := s.free + 1 })
  else (some a, s)

/-- A BAR0 access as a row takes it: an aborted access has its effect under every row, and any other write under the row of a register that
it touches (R392, R393, log 50, DEDUCED); a good read changes nothing. -/
def State.barTaken (s : State) (row : Option BarRow) (a : Bar0) : State :=
  if s.barAborts a then s.barError a
  else if a.read then s
  else
    let rows := a.lanes.filterMap s.rowOf
    let mine := match row with
      | some k => rows.contains k
      | none => rows.isEmpty
    if mine then s.barWrite a else s

/-- A BAR0 access that reaches the device, under a row. -/
def State.barRow (s : State) (row : Option BarRow) (a : Bar0) : State :=
  if ¬ s.barReaches a then s
  else
    match s.crossBus a with
    | (some b, t) => t.barTaken row b
    | (none, t) => t

/-- HELPER_CLK_EN_WRITE (R397). -/
def execHelperClkEnWrite (a : Bar0) (s : State) : Out := .next (s.barRow (some .helper) a)

/-- MAILBOX_BOOT_WRITE (R401): the stores are those that the host made before. -/
def execMailboxBootWrite (a : Bar0) (stores : List HostStore) (s : State) : Out := .next ((s.hostStores stores).barRow (some .boot) a)

/-- RING_ENABLE (R403). -/
def execRingEnable (a : Bar0) (s : State) : Out := .next (s.barRow (some .enable) a)

/-- RING_DISABLE (R403). -/
def execRingDisable (a : Bar0) (s : State) : Out := .next (s.barRow (some .disable) a)

/-- RING_IRQ_WRITE (R453). -/
def execRingIrqWrite (a : Bar0) (s : State) : Out := .next (s.barRow (some .irq) a)

/-- CONTAINMENT_DEFAULT_WRITE (R405). -/
def execContainmentDefaultWrite (a : Bar0) (s : State) : Out := .next (s.barRow (some .containment) a)

/-- POWER_CAP_WRITE (R406). -/
def execPowerCapWrite (a : Bar0) (s : State) : Out := .next (s.barRow (some .cap) a)

/-- STATUS_RESET_WRITE (R408). -/
def execStatusResetWrite (a : Bar0) (s : State) : Out := .next (s.barRow (some .reset) a)

/-- W1C_FLAG_WRITE (R11). -/
def execW1cFlagWrite (a : Bar0) (s : State) : Out := .next (s.barRow (some .flags) a)

/-- REGISTER_WRITE (R9). -/
def execRegisterWrite (a : Bar0) (s : State) : Out := .next (s.barRow none a)

/-! ### Configuration space (R388) -/

/-- The Vendor ID and the class code of a bay's function. -/
abbrev pciVendor : Nat := 0x1F37
abbrev pciClass : Nat := 0x120000

/-- The Device ID: the part's once the enablement record is accepted, before that the build's (R388). -/
def State.pciDevice (s : State) : Nat :=
  match s.enable.map (·.part) with
  | some 1 => 0x5600
  | some 2 => 0x5601
  | some 3 => 0x4201
  | some 4 => 0x2801
  | _ => if s.phys.stacked then 0x5601 else 0x5600

/-- What a read of a bay's configuration space or BAR2 can name (R388). -/
inductive PciItem where
  | vendor | device | classCode | bar0 | bar2 | d3hot | vectors
  | entry (n : Nat)
  | pendingBit (n : Nat)
  | cacheCapable | ioCapable | memCapable
deriving DecidableEq, Repr

/-- What such a read gives; the answer is an observation, and no row of the table writes this space (R388; log 105, DESIGN CHOICE). -/
def State.pciRead (s : State) (b : Nat) (i : PciItem) : Nat :=
  let x := (s.bay b).pci
  match i with
  | .vendor => pciVendor
  | .device => s.pciDevice
  | .classCode => pciClass
  | .bar0 => x.bar0
  | .bar2 => x.bar2
  | .d3hot => b2n x.d3hot
  | .vectors => 80
  | .entry n => Map.get 0 x.table n
  | .pendingBit n => b2n (x.pendingBits.contains n)
  | .cacheCapable => 1
  | .ioCapable => 1
  | .memCapable => 0

/-! ### Reads (R9, R396-R408) -/

/-- The step that MAILBOX_STATE shows: while the core-store test of a stacked build runs, its final pass, with which the near-tier test
begins, may have begun or not (R491, R495; log 109, DESIGN CHOICE). -/
def State.stepShown (s : State) : Nat :=
  if s.regs.devState = Dev.test ∧ s.regs.step = 6 ∧ s.phys.stacked then 6 + Config.freeNat s.free % 2 else s.regs.step

/-- What a register reads as through a bay. -/
def State.barValue (s : State) (bay : Nat) (r : BarReg) : Nat :=
  let g := s.regs
  match r with
  | .idPart => g.part + 256 * b2n s.phys.stacked + 65536 * (bay % 2)
  | .idRom => g.rom.toNat
  | .identity n => ofLe ((s.mgmt.identity.drop (8 * n)).take 8)
  | .capFields => s.enabledMask
  | .capPorts => match s.enable with
    | some e => e.ports + 65536 * e.bays
    | none => 0
  | .capUnits => match s.enable with
    | some e => e.units
    | none => 0
  | .capCores => 4096 * (maskList s.enabledMask 56).length
  | .capStations => 8 * (maskList s.enabledMask 56).length
  | .capLink => (s.bay 0).width + 4 * (s.bay 1).width
  | .helperEn => g.helperEn.toNat
  | .helperLock => g.helperLock.toNat
  | .helperPresent => g.helperPresent.toNat
  | .boot => g.bootAddr
  | .bootLen => g.bootLen
  | .mailState => g.devState + 256 * s.stepShown + 65536 * b2n g.quick + 2 ^ 20 * g.bootBay
  | .mailErr => g.errStatus + 256 * g.errItem
  | .ringReg n 32 => (s.ring n).cfg.toNat
  | .ringReg n 36 => (s.ring n).irq.toNat
  | .ringReg n 40 => (if (s.ring n).state = 1 ∧ ¬ s.ringLink n then 3 else (s.ring n).state) + 65536 * (s.ring n).err
  | .ringReg n o => if o = 8 ∧ 72 ≤ n then 0 else (s.ring n).addr o
  | .containment => b2n g.resetDefault
  | .powerCap => g.powerCap
  | .powerInput => g.powerInput
  | .statusFlags => g.flags.toNat
  | .statusCnt => g.flagsCnt.toNat
  | .statusRegErr => g.regErr.toNat
  | .statusReset => 0

/-- The 4 bytes that a read of an offset gives. -/
def State.barWord (s : State) (bay off : Nat) : Nat :=
  match laneOf off 0 with
  | l :: _ => s.barValue bay l.reg / (if l.half = 2 then 2 ^ 32 else 1) % 2 ^ 32
  | [] => 0

/-- What a BAR0 read answers: none for a completer abort.  The answer itself is an observation (log 51, DESIGN CHOICE). -/
def State.barRead (s : State) (a : Bar0) : Option Nat :=
  if s.barAborts a then none
  else some (s.barWord a.bay a.off + (if a.size = 8 then 2 ^ 32 * s.barWord a.bay (a.off + 4) else 0))

end Sys2Proof.Machine
end

