-- ==== Sys2Proof/WellFormed.lean ====
section
/-! DEFINITION. Which commands name units that the module can have (R5, R6). -/

namespace Sys2Proof

/-- A core of the 512 × 448 grid, by its CS_ID number (R6, R109). -/
def isCore (c : Nat) : Bool := decide (c < 512 * 448)

/-- A cluster of the 128 × 112 grid (R6, R532). -/
def isCluster (k : Nat) : Bool := decide (k < 128 * 112)

/-- A field (R21). -/
def isField (f : Nat) : Bool := decide (f < 56)

/-- A memory station (R29). -/
def isStation (n : Nat) : Bool := decide (n < 448)

/-- A feeder port (R31). -/
def isPort (p : Nat) : Bool := decide (p < 16)

/-- A host bay (R32). -/
def isBay (b : Nat) : Bool := decide (b < 2)

/-- A forme, which is also the number of its ring (R276, R402). -/
def isForme (f : Nat) : Bool := decide (f < 64)

/-- A ring: 72 command rings, the event, the report and the proof ring (R402). -/
def isRing (r : Nat) : Bool := decide (r < 75)

/-- Whether every unit a command names exists on a module (R5; log 14, DESIGN CHOICE). -/
def Instr.wellFormed (i : Instr) : Bool :=
  match i with
  | .nop c _ => isCore c
  | .endBlock c _ => isCore c
  | .fence c _ => isCore c
  | .qarr c _ => isCore c
  | .br c _ => isCore c
  | .dbnz c _ => isCore c
  | .plog c _ => isCore c
  | .salu c _ => isCore c
  | .addi c _ => isCore c
  | .andi c _ => isCore c
  | .ori c _ => isCore c
  | .xori c _ => isCore c
  | .shi c _ => isCore c
  | .movl c _ => isCore c
  | .movh c _ => isCore c
  | .cmp c _ => isCore c
  | .cmpi c _ => isCore c
  | .ldw c _ => isCore c
  | .stw c _ => isCore c
  | .vld c _ => isCore c
  | .vst c _ => isCore c
  | .csr c _ => isCore c
  | .csw c _ => isCore c
  | .scfg c _ => isCore c
  | .ben c _ => isCore c
  | .vadd c _ => isCore c
  | .vsub c _ => isCore c
  | .vmul c _ => isCore c
  | .vfma c _ => isCore c
  | .vmin c _ => isCore c
  | .vmax c _ => isCore c
  | .vun c _ => isCore c
  | .vbcast c _ => isCore c
  | .vext c _ => isCore c
  | .vrow c _ => isCore c
  | .vshuf c _ => isCore c
  | .vint c _ => isCore c
  | .vcmp c _ => isCore c
  | .vsel c _ => isCore c
  | .vsum c _ => isCore c
  | .vcvt c _ => isCore c
  | .vtr c _ => isCore c
  | .prod c _ => isCore c
  | .pclr c _ => isCore c
  | .drain c _ => isCore c
  | .lstat c _ => isCore c
  | .ldot c _ => isCore c
  | .tclaim c _ => isCore c
  | .twrv c _ => isCore c
  | .twrm c _ => isCore c
  | .trel c _ => isCore c
  | .chopen c _ => isCore c
  | .chlisten c _ => isCore c
  | .chclose c _ => isCore c
  | .sendv c _ => isCore c
  | .sendm c _ => isCore c
  | .grdv c _ => isCore c
  | .grds c _ => isCore c
  | .gcopy c _ => isCore c
  | .readinessEvaluation c _ => isCore c
  | .blockCommit c _ => isCore c
  | .replayBlock c => isCore c
  | .suspectWindowExpiry k => isCluster k
  | .steerForward c u _ => isCore c && decide (u < 4)
  | .route c i v _ => isCore c && decide (i < 5) && decide (v < 2)
  | .routerForward c d v => isCore c && decide (d < 6) && decide (v < 2)
  | .linkScoreWindowEnd c => isCore c
  | .reduceForward c i _ => isCore c && decide (i < 16)
  | .galleyWrite c v => isCore c && decide (v < 2)
  | .connectMsg _ => true
  | .acceptMsg c => isCore c
  | .refuseMsg c => isCore c
  | .closeMsg c => isCore c
  | .creditMsg c => isCore c
  | .combiningAdd c g _ => isCore c && decide (g < 16)
  | .spillCreditGrant c g => isCore c && decide (g < 16)
  | .spillRefill c g => isCore c && decide (g < 16)
  | .quoinRelease f t => isForme f && decide (t < 16)
  | .deadlock f => isForme f
  | .patienceExpiry f => isForme f
  | .coreLost c _ => isCore c
  | .formeDrainDone f => isForme f
  | .loadLeading r => isRing r
  | .setClocks r => isRing r
  | .clockChange _ => true
  | .openForme r => isRing r
  | .closeForme r => isRing r
  | .resetForme r => isRing r
  | .resetCluster r => isRing r
  | .resetCore r => isRing r
  | .openWindow r => isRing r
  | .bindFeeder r => isRing r
  | .unbindFeeder r => isRing r
  | .setStereo r => isRing r
  | .query r => isRing r
  | .attest r => isRing r
  | .startTest r => isRing r
  | .hellboxExport r => isRing r
  | .nopCommand r => isRing r
  | .loadImposition r => isRing r
  | .loadTensor r => isRing r
  | .readTensor r => isRing r
  | .streamLayer r => isRing r
  | .run r => isRing r
  | .waitQuoin r => isRing r
  | .accumulateOut r => isRing r
  | .updateCommand r => isRing r
  | .contextAlloc r => isRing r
  | .contextFree r => isRing r
  | .resendParts r => isRing r
  | .fenceCommand r => isRing r
  | .mark r => isRing r
  | .partCompletion r _ _ _ => isRing r
  | .doorbellSnoop r _ => isRing r
  | .consumerLineSnoop r _ => isRing r
  | .eventRecordWrite => true
  | .reportRecordWrite => true
  | .proofRecordWrite => true
  | .stationRead n _ => isStation n
  | .stationWrite n _ => isStation n
  | .gather n _ => isStation n
  | .scatter n _ => isStation n
  | .accum n _ => isStation n
  | .convert n _ => isStation n
  | .stationUpdate n _ => isStation n
  | .ctxAlloc n _ => isStation n
  | .ctxResolve n _ => isStation n
  | .ctxFree n _ => isStation n
  | .flush n _ => isStation n
  | .orderedReplayApply n => isStation n
  | .patrolScrub n _ => isStation n
  | .selfRefreshEntry n => isStation n
  | .accumOrderRecordClose n _ _ => isStation n
  | .portRead p => isPort p
  | .portWrite p => isPort p
  | .gradOp p => isPort p
  | .frameCloseTimeout p _ => isPort p
  | .frameTransmit p => isPort p
  | .weightData p _ => isPort p
  | .readRsp p _ => isPort p
  | .sync p _ => isPort p
  | .cancel p _ => isPort p
  | .wspCredit p _ => isPort p
  | .ack p _ => isPort p
  | .nak p _ => isPort p
  | .hello p _ => isPort p
  | .poisonNotice p _ => isPort p
  | .helloTimer p => isPort p
  | .ackTimer p => isPort p
  | .retransmitTimeout p => isPort p
  | .creditRepeat p => isPort p
  | .holdExpiry p => isPort p
  | .trainingTimeout p => isPort p
  | .pcsAligned p => isPort p
  | .pcsAlignmentLost p => isPort p
  | .moduleInsert p _ _ => isPort p
  | .moduleRemove p => isPort p
  | .hostRead b _ => isBay b
  | .hostWrite b => isBay b
  | .reportOp b => isBay b
  | .hostLinkDown b => isBay b
  | .hostLinkRetrain b width => isBay b && decide (1 ≤ width) && decide (width ≤ 3)
  | .helperClkEnWrite a => isBay a.bay
  | .mailboxBootWrite a _ => isBay a.bay
  | .ringEnable a => isBay a.bay
  | .ringDisable a => isBay a.bay
  | .ringIrqWrite a => isBay a.bay
  | .containmentDefaultWrite a => isBay a.bay
  | .powerCapWrite a => isBay a.bay
  | .statusResetWrite a => isBay a.bay
  | .w1cFlagWrite a => isBay a.bay
  | .registerWrite a => isBay a.bay
  | .fieldGovernorEvaluation f _ => isField f
  | .pendingDarkLimit f => isField f
  | .moduleGovernorUpdate _ => true
  | .softStartInterval k => isCluster k
  | .droopTrip f => isField f
  | .droopEnd f => isField f
  | .clockSlewStep k => isCluster k
  | .inputQualified _ => true
  | .inputLostQualification _ => true
  | .loopLock k => isCluster k
  | .loopLockLoss k => isCluster k
  | .stationClockFloor n => isStation n
  | .ageingMeasurement _ => true
  | .correctedWindowEnd _ _ => true
  | .checkpoint _ => true
  | .signatureComplete => true
  | .announceTimer => true
  | .subscribe _ => true
  | .subscriptionExpiry _ => true
  | .resend _ => true
  | .managementPortUp => true
  | .deviceReset _ => true
  | .resetDeviceContainment => true
  | .powerGood => true
  | .bootRomStart _ => true
  | .identityDerivation _ _ _ => true
  | .fieldPowerWave => true
  | .railRegulationTimeout f => isField f
  | .coreStoreTestDone _ => true
  | .nearTierTestDone _ => true
  | .linkDiscoveryDone _ => true
  | .readinessGate => true
  | .tripWaitExpiry => true
  | .inputRise => true
  | .inputOutOfRange => true
  | .inputReturn => true
  | .inputLost => true
  | .clipPairLost p => decide (p < 2)
  | .clipPairReturn p => decide (p < 2)
  | .resetLAssert _ _ => true
  | .resetLRelease => true
  | .managementPortDown => true
  | .routerAdvertisement _ => true

end Sys2Proof
end

