-- ==== Sys2Proof/Machine/Clocks.lean ====
section
/-! DEFINITION. The reference, the cluster loops and their island clocks, and what the loss of the reference does (R454-R470, R477, R516,
R599). -/

namespace Sys2Proof.Machine

/-! ### The ladder (R459, R469) -/

/-- A cluster's step without the power governor's limit (R459). -/
def Cluster.unpowered (x : Cluster) : Nat := min x.cap (min x.thermStep (if x.forme.isSome then x.formeStep else 33))

/-- The step that a cluster runs at (R459). -/
def Cluster.target (x : Cluster) : Nat := min x.powerStep x.unpowered

/-- The stations that adjoin a cluster (R29). -/
def clusterStations (k : Nat) : List Nat :=
  let f := clusterField k
  let row := k / 128 % 16 / 4
  (if k % 16 = 0 then [8 * f + row] else []) ++ (if k % 16 = 15 then [8 * f + 4 + row] else [])

/-- The lowest step that a governor may set for a cluster (R469). -/
def State.floorStep (s : State) (k : Nat) : Nat := (clusterStations k).foldl (fun m n => max m ((s.stationMHz n + 199) / 200)) 8

/-! ### Starting and losing a loop (R457-R464, R599) -/

/-- Whether a cluster's clock may start: its rail is on, its field is not dark, and no open forme whose rectangle holds it leaves its
field out, whether the field went dark before the OPEN_FORME or after it (R484, R599). -/
def State.mayStart (s : State) (k : Nat) : Bool :=
  let fd := clusterField k
  (s.field fd).powered && !(s.field fd).dark && s.formes.all (fun e => e.2.viewFields.testBit fd || !e.2.clusters.contains k)

/-- A REF_LOST record of a cluster (R463, R464, R534). -/
def State.postRef (s : State) (k detail : Nat) (ends : Bool) : State :=
  s.post { RecSpec.event Config.clsRefLost 2 k (le detail 1) with forme := (s.cluster k).forme, flags := b2n ends }

/-- A running cluster begins to coast at 800 MHz (R463). -/
def State.coast (s : State) (k detail : Nat) : State :=
  let x := s.cluster k
  if x.ladder = 0 ∨ x.coasting then s
  else ((s.updCluster k (fun x => { x with coasting := true, refLost := true, lostBy := detail, locked := false, ladder := 8 })).setStatus 3).postRef k detail false

/-- Whether a cluster's selected input is qualified. -/
def Cluster.qualified (x : Cluster) : Bool := x.qual0 || x.qual1

/-- A cluster input changes its qualification; the first input is selected whenever it is qualified (R458). -/
def Cluster.setQual (x : Cluster) (input : Nat) (q : Bool) : Cluster :=
  let y := if input = 0 then { x with qual0 := q } else { x with qual1 := q }
  { y with second := !y.qual0 }

/-- Whether a cluster forwards its reference: it is present, with its rail on, and its selected input is qualified (R456). -/
def State.forwards (s : State) (k : Nat) : Bool :=
  s.clusterHere k && (s.field (clusterField k)).powered && (s.cluster k).qualified

/-- Whether the reference reaches an input of a cluster: from the ring, which forwards whatever it receives, or from a neighbour that
forwards it (R455, R456). -/
def State.fed (s : State) (k i : Nat) : Bool :=
  s.clocks.pinQualified && (match refSource k i with
    | none => true
    | some n => s.forwards n)

/-- An input of a cluster loses its qualification: the cluster goes on with the other one, or coasts (R458, R463). -/
def State.dropInput (s : State) (k i : Nat) : State :=
  let s := s.updCluster k (fun x => x.setQual i false)
  if (s.cluster k).qualified then s else s.coast k 2

/-- The clusters of a field, those nearest to its edges first: what feeds a cluster comes before it (R456). -/
def inwardClusters (f : Nat) : List Nat :=
  let depth (k : Nat) : Nat := min (k % 16) (15 - k % 16) + min (k / 128 % 16) (15 - k / 128 % 16)
  (List.range 15).flatMap (fun d => (fieldClusters f).filter (fun k => depth k == d))

/-- The inputs of a field that no reference reaches any more lose their qualification (R456, R457). -/
def State.settleInputs (s : State) (f : Nat) : State :=
  s.forAll (inwardClusters f) (fun s k => s.forAll [0, 1] (fun s i =>
    if (if i = 0 then (s.cluster k).qual0 else (s.cluster k).qual1) && !s.fed k i then s.dropInput k i else s))

/-- INPUT_QUALIFIED (R457): the pin, a repeater, or a cluster input that the reference reaches (R456). -/
def execInputQualified (i : RefInput) (s : State) : Out :=
  .next (if ¬ s.power.standby then s
    else if i.kind = 0 then { s with clocks := { s.clocks with pinQualified := true } }
    else if i.kind = 1 then { s with clocks := { s.clocks with repeaters := Map.set false s.clocks.repeaters i.cluster true } }
    else if i.kind = 2 ∧ i.input < 2 ∧ isCluster i.cluster ∧ s.fed i.cluster i.input then s.updCluster i.cluster (fun x => x.setQual i.input true)
    else s)

/-- The pin loses the reference: every input with it, every running cluster coasts, and every UP port is LOST (R465). -/
def State.pinLost (s : State) : State :=
  let s := { s with clocks := { s.clocks with pinQualified := false, repeaters := [] } }
  let s := { s with clusters := mapClusters s.clusters (fun _ x => { x with qual0 := false, qual1 := false, second := true }) }
  let s := s.forAll (s.clusters.map (·.1)) (fun s k => s.coast k 0)
  s.forAll ((List.range 16).filter (fun p => decide ((s.fport p).link = 3))) (fun s p => s.loseLink p 0)

/-- INPUT_LOST_QUALIFICATION (R457, R458, R463): the cluster switches to its other input, or coasts, and no longer forwards; what it alone
fed loses its reference too. -/
def execInputLostQualification (i : RefInput) (s : State) : Out :=
  .next (if ¬ s.power.standby then s
    else if i.kind = 0 then (if s.clocks.pinQualified then s.pinLost else s)
    else if i.kind = 1 then { s with clocks := { s.clocks with repeaters := Map.set false s.clocks.repeaters i.cluster false } }
    else if i.kind = 2 ∧ i.input < 2 ∧ isCluster i.cluster then (s.dropInput i.cluster i.input).settleInputs (clusterField i.cluster)
    else s)

/-- Whether every present cluster of the powered fields runs. -/
def State.allLocked (s : State) : Bool :=
  (List.range 56).all (fun f => !(s.fieldPresent f && (s.field f).powered)
    || (fieldClusters f).all (fun k => decide ((s.cluster k).ladder ≠ 0) || !s.clusterPresent k))

/-- Bring-up goes on to the core-store test when every wave is over and every loop has locked (R491). -/
def State.beginTests (s : State) : State :=
  if s.regs.devState = Dev.bringup ∧ s.regs.step = 5 ∧ s.allLocked then
    { s with regs := { s.regs with devState := Dev.test, step := 6 } }
  else s

/-- LOOP_LOCK (R464, R599): a coasting loop locks, and the end of the loss names the receiver that its beginning named (log 111, DEDUCED); or a stopped
clock starts at 800 MHz. -/
def execLoopLock (k : Nat) (s : State) : Out :=
  let x := s.cluster k
  .next (if ¬ x.qualified then s
    else if x.coasting then
      (s.updCluster k (fun x => { x with coasting := false, refLost := false, locked := true })).postRef k x.lostBy true
    else if x.ladder = 0 ∧ s.mayStart k then
      (s.updCluster k (fun x => { x with locked := true, ladder := 8, mismatches := 0, winOpen := false })).beginTests
    else s)

/-- LOOP_LOCK_LOSS (R516): the loop coasts until it locks again, and the loss counts as a mismatch of the cluster. -/
def execLoopLockLoss (k : Nat) (s : State) : Out :=
  let x := s.cluster k
  .next (if x.ladder = 0 ∨ x.coasting ∨ ¬ x.qualified ∨ ¬ s.clusterHere k then s
    else (s.coast k 3).clusterMismatch k 0 (fun s action count =>
      s.post { RecSpec.event Config.clsResidue 2 k (mismatchDetail 0 0 0 0 count 1) with forme := x.forme, action := action }))

/-- CLOCK_SLEW_STEP (R461): a locked loop moves one step toward the step of R459. -/
def execClockSlewStep (k : Nat) (s : State) : Out :=
  let x := s.cluster k
  .next (if x.locked ∧ x.ladder ≠ 0 ∧ ¬ x.coasting then
      if x.ladder < x.target then s.updCluster k (fun x => { x with ladder := x.ladder + 1 })
      else if x.target < x.ladder then s.updCluster k (fun x => { x with ladder := x.ladder - 1 })
      else s
    else s)

/-- STATION_CLOCK_FLOOR (R469): a station's clock falls to 1.6 GHz while an adjoining cluster coasts, and returns after. -/
def execStationClockFloor (n : Nat) (s : State) : Out :=
  let low := (stationClusters n).any (fun k => (s.cluster k).coasting)
  .next (if low = (s.station n).clockLow then s else s.updStation n (fun m => { m with clockLow := low }))

/-- SOFT_START_INTERVAL (R477): the next eighth of the grant; the eighth interval is the last. -/
def execSoftStartInterval (k : Nat) (s : State) : Out :=
  let x := s.cluster k
  .next (if x.soft = 0 then s else s.updCluster k (fun x => { x with soft := if x.soft < 8 then x.soft + 1 else 0 }))

/-- DROOP_TRIP (R478): the island clocks of the field are stretched. -/
def execDroopTrip (f : Nat) (s : State) : Out :=
  .next (if (s.field f).powered then s.updField f (fun x => { x with stretched := true }) else s)

/-- DROOP_END (R478). -/
def execDroopEnd (f : Nat) (s : State) : Out :=
  .next (if (s.field f).stretched then s.updField f (fun x => { x with stretched := false }) else s)

end Sys2Proof.Machine
end

