-- ==== Sys2Proof/Machine/Heat.lean ====
section
/-! DEFINITION. The field and module governors, fields that go dark and return, and ageing (R471-R486, R522-R529). -/

namespace Sys2Proof.Machine

/-! ### Readings (R442, R479, R480) -/

/-- Warn, throttle, dark and trip thresholds in units of 0.0625 degrees (R480). -/
structure Limits where
  warn : Int
  throttle : Int
  dark : Int
  trip : Int
deriving DecidableEq, Repr

/-- The thresholds of a build (R480). -/
def heatLimits (stacked : Bool) : Limits :=
  if stacked then { warn := 82 * 16, throttle := 86 * 16, dark := 90 * 16, trip := 95 * 16 }
  else { warn := 90 * 16, throttle := 95 * 16, dark := 100 * 16, trip := 105 * 16 }

/-- A cluster's hotter sensor. -/
def Cluster.hot (x : Cluster) : Int := max x.temp0 x.temp1

/-- The readings of one evaluation, for the clusters of the field. -/
def State.readSensors (s : State) (f : Nat) (m : FieldMeas) : State :=
  s.forAll (m.temps.filter (fun t => isCluster t.1 && clusterField t.1 == f)) (fun s t =>
    s.updCluster t.1 (fun x => { x with temp0 := t.2.1, temp1 := t.2.2 }))

/-- The cluster with the hottest reading of a field, the first of equals. -/
def State.hottest (s : State) (f : Nat) : Nat :=
  (fieldClusters f).foldl (fun b k => if (s.cluster b).hot < (s.cluster k).hot then k else b) ((fieldClusters f).headD 0)

/-- The detail of THERMAL_WARN and THROTTLE (R534). -/
def State.heatDetail (s : State) (f : Nat) : Bytes :=
  let k := s.hottest f
  let x := s.cluster k
  le (ofInt x.hot 16) 2 ++ le k 2 ++ le x.target 1

/-! ### Thermal steps (R469, R474, R481) -/

/-- Whether every cluster of a field is at the floor of R469. -/
def State.atFloor (s : State) (f : Nat) : Bool := (fieldClusters f).all (fun k => decide ((s.cluster k).thermStep ≤ s.floorStep k))

/-- Changes the thermal step of every cluster of a field. -/
def State.setTherm (s : State) (f : Nat) (g : Nat → Nat → Nat) : State :=
  s.forAll (fieldClusters f) (fun s k => s.updCluster k (fun x => { x with thermStep := g k x.thermStep }))

/-- The field is throttled one step further (R481). -/
def State.throttleDown (s : State) (f : Nat) : State :=
  let t := s.setTherm f (fun k n => max (s.floorStep k) (n - 1))
  if (s.field f).throttled then t
  else (t.updField f (fun x => { x with throttled := true })).post (RecSpec.event Config.clsThrottle 3 f (t.heatDetail f))

/-- The field gets one step back; THROTTLE ends when no cluster is limited any more, and the limit is then released (R481). -/
def State.throttleUp (s : State) (f : Nat) : State :=
  let t := s.setTherm f (fun _ n => min 33 (n + 1))
  let free (x : Cluster) : Bool := decide ({ x with thermStep := 33 }.unpowered ≤ x.thermStep)
  if (fieldClusters f).all (fun k => free (t.cluster k)) then
    ((t.updField f (fun x => { x with throttled := false })).setTherm f (fun _ _ => 33)).post
      { RecSpec.event Config.clsThrottle 3 f (t.heatDetail f) with flags := 1 }
  else t

/-- Throttling, after the readings (R481). -/
def State.throttleField (s : State) (f : Nat) : State :=
  let l := heatLimits s.phys.stacked
  let hot := (s.cluster (s.hottest f)).hot
  if l.throttle ≤ hot then s.throttleDown f
  else if hot < l.throttle - 64 ∧ (s.field f).throttled then s.throttleUp f
  else s

/-- The warning, after the step of the same evaluation (R481, R534). -/
def State.warnField (s : State) (f : Nat) : State :=
  let l := heatLimits s.phys.stacked
  let hot := (s.cluster (s.hottest f)).hot
  if l.warn ≤ hot then
    if (s.field f).warned then s
    else ((s.updField f (fun x => { x with warned := true })).setStatus 4).post (RecSpec.event Config.clsThermalWarn 3 f (s.heatDetail f))
  else if hot < l.warn - 32 then s.updField f (fun x => { x with warned := false })
  else s

/-! ### Dark fields (R306, R307, R481-R484) -/

/-- Counts a hot evaluation at the floor; the 32nd makes the field pending-dark (R481). -/
def State.countHot (s : State) (f : Nat) (floor : Bool) : State :=
  let l := heatLimits s.phys.stacked
  let x := s.field f
  if x.pendingDark then s.updField f (fun x => { x with waitEvals := x.waitEvals + 1 })
  else if floor ∧ l.throttle ≤ (s.cluster (s.hottest f)).hot then
    if 31 ≤ x.hotEvals then s.updField f (fun x => { x with pendingDark := true, hotEvals := 0, waitEvals := 0 })
    else s.updField f (fun x => { x with hotEvals := x.hotEvals + 1 })
  else s.updField f (fun x => { x with hotEvals := 0 })

/-- A field goes dark now, with those whose formes it faults (R307). -/
def State.goDarkNow (s : State) (f : Nat) : State := (s.goDark f).settleDark allFields

/-- The dark field returns: its rail is on, and its loops may lock (R484). -/
def State.fieldReturns (s : State) (f : Nat) : State :=
  let s := { s.updField f (fun x => { x with
    dark := false, coolEvals := 0, powered := decide (s.regs.devState ≠ Dev.failed) }) with mapGen := s.mapGen + 1 }
  s.post { RecSpec.event Config.clsFieldDark 3 f (le 2 1 ++ zeros 3 ++ le s.mapGen 4) with flags := 1 }

/-- An evaluation of a dark field (R484). -/
def State.evalDark (s : State) (f : Nat) : State :=
  let l := heatLimits s.phys.stacked
  if (s.cluster (s.hottest f)).hot < l.warn - 160 then
    if 255 ≤ (s.field f).coolEvals then s.fieldReturns f
    else s.updField f (fun x => { x with coolEvals := x.coolEvals + 1 })
  else s.updField f (fun x => { x with coolEvals := 0 })

/-! ### The power step and the allowance (R475, R476) -/

/-- The power step never goes above the step that R459 otherwise allows (R475). -/
def State.boundPower (s : State) (f : Nat) : State :=
  s.forAll (fieldClusters f) (fun t k => t.updCluster k (fun x => { x with powerStep := min x.powerStep x.unpowered }))

/-- The power step of every cluster of a field (R469, R475). -/
def State.powerEval (s : State) (f power : Nat) : State :=
  let b := (s.field f).budget
  let next (k n : Nat) : Nat := if b < power then max (s.floorStep k) (n - 1) else if power * 100 ≤ b * 95 then n + 1 else n
  let s := s.updField f (fun x => { x with power := power })
  (s.forAll (fieldClusters f) (fun t k => t.updCluster k (fun x => { x with powerStep := next k x.powerStep }))).boundPower f

/-- The activity allowance of every cluster of a field, from 1 to 48; how it is computed is not given (R476). -/
def State.grantField (s : State) (f : Nat) : State :=
  let d := s.draw
  d.2.forAll (fieldClusters f) (fun t k => t.updCluster k (fun x => { x with grant := d.1 % 48 + 1 }))

/-- An evaluation of a present field (R474, R481, R482). -/
def State.evalPresent (s : State) (f power : Nat) : State :=
  let l := heatLimits s.phys.stacked
  let floor := s.atFloor f
  let s := ((s.boundPower f).throttleField f).warnField f
  let hot := (s.cluster (s.hottest f)).hot
  if l.dark ≤ hot then s.goDarkNow f
  else
    let s := s.countHot f floor
    if (s.field f).pendingDark ∧ ¬ s.mayWait f then s.goDarkNow f
    else if (s.field f).powered then (s.powerEval f power).grantField f
    else s

/-- FIELD_GOVERNOR_EVALUATION (R474): the readings of an enabled field; a module trip decides before everything but the warning
(R485, R486). -/
def execFieldGovernorEvaluation (f : Nat) (m : FieldMeas) (s : State) : Out :=
  .next (if s.awake ∧ s.fieldEnabled f ∧ s.helperOn 5 then
      let s := s.readSensors f m
      if (heatLimits s.phys.stacked).trip ≤ (s.cluster (s.hottest f)).hot then
        if s.regs.devState = Dev.failed ∧ s.power.heatTrip then s
        else
          let s := s.warnField f
          (s.setStatus 4).moduleTrip f (s.heatDetail f)
      else if (s.field f).dark then s.evalDark f
      else s.evalPresent f m.power
    else s)

/-- PENDING_DARK_LIMIT (R307, R482): 256 evaluations have passed, or nothing is left to wait for. -/
def execPendingDarkLimit (f : Nat) (s : State) : Out :=
  let x := s.field f
  .next (if x.pendingDark ∧ (256 ≤ x.waitEvals ∨ ¬ s.mayWait f) then s.goDarkNow f else s)

/-! ### The module governor (R471, R472, R579) -/

/-- The cap that the governor acts on: POWER_CAP, or 6.0 kW while one clip pair is lost (R579). -/
def State.capInForce (s : State) : Nat :=
  if s.power.clipALost ∨ s.power.clipBLost then min s.regs.powerCap 60 else s.regs.powerCap

/-- A POWER_CAP record (R472, R534). -/
def State.postCap (s : State) (flags : Nat) : State :=
  s.post { RecSpec.event Config.clsPowerCap 9 0 (le s.capInForce 2 ++ le s.regs.powerInput 2) with flags := flags }

/-- Divides a pool of watts among fields: each takes a free part of what is left (R471, R486; log 67, DESIGN CHOICE). -/
def State.share (s : State) : List Nat → Nat → State
  | [], _ => s
  | f :: t, pool =>
    let d := s.draw
    let b := d.1 % (pool + 1)
    (d.2.updField f (fun x => { x with budget := b })).share t (pool - b)

/-- Sets the budget of each present field, and none for the others: the cap is divided among them, and while POWER_INPUT is above the cap
they get no more together than they had (R471, R486; log 67, DESIGN CHOICE). -/
def State.setBudgets (s : State) : State :=
  let l := (List.range 56).filter s.fieldPresent
  let had := (l.map (fun f => (s.field f).budget)).sum
  let cap := 100 * s.capInForce
  let s := s.forAll ((List.range 56).filter (fun f => !s.fieldPresent f)) (fun s f => s.updField f (fun x => { x with budget := 0 }))
  s.share l (if cap < 10 * s.regs.powerInput then min cap had else cap)

/-- MODULE_GOVERNOR_UPDATE (R471, R472): POWER_INPUT is compared with the cap, the budgets are set, and holding begins or ends. -/
def execModuleGovernorUpdate (m : PowerMeas) (s : State) : Out :=
  .next (if s.awake ∧ s.helperOn 5 then
      let s := ({ s with regs := { s.regs with powerInput := m.input % 2 ^ 16 } }).setBudgets
      let held := m.asks.any (fun a => s.fieldPresent a.1 && decide ((s.field a.1).budget < a.2))
      let was := s.power.capHeld
      let s := { s with power := { s.power with capHeld := held } }
      if held && !was then (s.setStatus 5).postCap 0 else if was && !held then s.postCap 1 else s
    else s)

/-! ### Ageing (R522, R523, R527) -/

/-- The index in ppm that a baseline and a count give; a value half way between two is rounded either way (R523). -/
def ageingIndex (r0 n tie : Nat) : Int :=
  let a : Int := 1000000 * ((r0 : Int) - 16 * n)
  let q := a.fdiv r0
  let r := a - q * r0
  if 2 * r < r0 then q else if (r0 : Int) < 2 * r then q + 1 else q + (tie % 2 : Nat)

/-- One measurement: a cluster without a baseline takes its first ratio (R523). -/
def State.measure (s : State) (m : Nat × Nat) : State :=
  let k := m.1
  let d := s.draw
  let p := Map.get Lead.init s.plan.clusters k
  if p.r0 = 0 then (d.2.updLead k (fun l => { l with r0 := 16 * m.2 % 2 ^ 32 })).updCluster k (fun x => { x with ageing := 0 })
  else d.2.updCluster k (fun x => { x with ageing := ageingIndex p.r0 m.2 d.1 })

/-- The clusters that a measurement round reaches: present, of fields that are powered and not dark (R522). -/
def State.measurable (s : State) (k : Nat) : Bool := isCluster k && (s.field (clusterField k)).powered && s.clusterPresent k

/-- A cluster's record after a re-plan, for its new index (R527). -/
def Lead.replan (l : Lead) (i : Int) : Lead :=
  let d := i - l.index
  if d ≤ 0 then { l with index := i }
  else
    let steps := d / 250
    let up := min steps (12 - l.voff)
    if l.voff = 12 ∧ l.cap = 8 then { l with index := i, flags := setBit l.flags 1 }
    else { l with index := i, voff := l.voff + up, cap := if up < steps ∧ 8 < l.cap then l.cap - 1 else l.cap }

/-- Raises the setpoint of a field whose mean offset is above +30 mV, and lowers its offsets as much (R527, log 52, DEDUCED). -/
def State.liftField (s : State) (f : Nat) : State :=
  let l := (fieldClusters f).filter s.clusterPresent
  let sum := l.foldl (fun (n : Int) k => n + (Map.get Lead.init s.plan.clusters k).voff) 0
  let sp := Map.get 0 s.plan.setpoints f
  let rise := min 10 (850 - sp) / 5
  if 6 * (l.length : Int) < sum ∧ 0 < rise then
    let s := { s with plan := { s.plan with setpoints := Map.set 0 s.plan.setpoints f (sp + 5 * rise) } }
    s.forAll (fieldClusters f) (fun s k => s.updLead k (fun x => { x with voff := max (-8) (x.voff - rise) }))
  else s

/-- A new plan joins the history: it names the head before it (R529). -/
def State.extendChain (s : State) : State :=
  let p := s.plan
  ({ s with plan := { p with generation := (p.generation + 1) % 2 ^ 32, prevHead := p.histHead, plans := p.histPlans } }).chainPlan

/-- Re-plans when a present cluster has moved by more than 500 ppm (R527, R528). -/
def State.replan (s : State) (l : List Nat) : State :=
  let moved (k : Nat) : Int := (s.cluster k).ageing - (Map.get Lead.init s.plan.clusters k).index
  let due := l.filter (fun k => decide (500 < moved k ∨ moved k < -500))
  if due.isEmpty then s
  else
    let largest := due.foldl (fun (m : Int) k => max m (moved k)) 0
    let s := s.forAll due (fun s k => s.updLead k (fun x => x.replan (s.cluster k).ageing))
    let s := (s.forAll ((List.range 56).filter s.fieldPresent) State.liftField).extendChain
    let worn := (l.filter (fun k => (Map.get Lead.init s.plan.clusters k).flags.testBit 1)).length
    s.applyPlan.post (RecSpec.event Config.clsAgeing 9 0
      (le 0 4 ++ le s.plan.generation 4 ++ le due.length 4 ++ le (ofInt largest 32) 4 ++ le worn 2))

/-- AGEING_MEASUREMENT (R522, R523, R524, R527): the counts of the stressed oscillators, which give a baseline where there is none, a change
of the plan, and then the re-plan. -/
def execAgeingMeasurement (ms : List (Nat × Nat)) (s : State) : Out :=
  .next (if s.awake then
      let l := ms.filter (fun m => s.measurable m.1)
      let first := l.any (fun m => decide ((Map.get Lead.init s.plan.clusters m.1).r0 = 0))
      let t := s.forAll l State.measure
      let t := if first then { t with plan := { t.plan with generation := (t.plan.generation + 1) % 2 ^ 32 } } else t
      t.replan ((l.map (·.1)).eraseDups)
    else s)

end Sys2Proof.Machine
end

