-- ==== Sys2Proof/Machine/Bringup.lean ====
section
/-! DEFINITION. The supply, the control connector, and the steps of bring-up from power-good to the readiness gate (R491-R503, R508,
R577-R585, R598). -/

namespace Sys2Proof.Machine

/-! ### The supply and the control connector (R577-R581, R585) -/

/-- The bays that carry a die train their links (R386, R580); a bay that cannot train at four modules reports a narrower width by
HOST_LINK_RETRAIN. -/
def State.trainBays (s : State) : State :=
  { s with bays := s.bays.map (fun (e : Nat × Bay) => (e.1, if e.2.die then { e.2 with width := 3 } else e.2)) }

/-- INPUT_RISE (R578): the standby converter starts. -/
def execInputRise (s : State) : Out :=
  .next (if s.power.input = 0 then { s with power := { s.power with input := 1 } } else s)

/-- POWER_GOOD (R580): the standby rails are in regulation, and the bays train unless RESET_L holds the module. -/
def execPowerGood (s : State) : Out :=
  .next (if s.power.input = 0 ∨ s.power.standby then s
    else
      let s := { s with power := { s.power with standby := true, pwrOk := true } }
      if s.power.resetLow then s else s.trainBays)

/-- INPUT_OUT_OF_RANGE (R578): an input trip; under RESET_L only TRIP_L remembers it (R598). -/
def execInputOutOfRange (s : State) : Out :=
  .next (if ¬ s.power.standby ∨ s.power.input ≠ 1 then s
    else
      let s := { s with power := { s.power with input := 2 } }
      if s.power.resetLow then { s with power := { s.power with tripLatched := true, wavesHeld := true } } else s.inputTrip)

/-- INPUT_RETURN (R578): the input has been back in range for 1 s. -/
def execInputReturn (s : State) : Out :=
  .next (if s.power.standby ∧ s.power.input = 2 then { s with power := { s.power with input := 1, wavesHeld := false } } else s)

/-- The module without power: everything is lost (R578). -/
def State.unpower (s : State) : State :=
  let t := s.rebootModule
  { t with
    clusters := []
    clocks := { t.clocks with pinQualified := false }
    power := { Power.init with input := 0, standby := false, pwrOk := false, resetLow := s.power.resetLow } }

/-- INPUT_LOST (R578). -/
def execInputLost (s : State) : Out := .next (if s.power.input = 0 then s else s.unpower)

/-- Marks a clip pair: 0 A, 1 B. -/
def Power.setPair (p : Power) (pair : Nat) (lost : Bool) : Power :=
  if pair = 0 then { p with clipALost := lost } else { p with clipBLost := lost }

/-- Whether a clip pair is lost. -/
def Power.pairLost (p : Power) (pair : Nat) : Bool := if pair = 0 then p.clipALost else p.clipBLost

/-- CLIP_PAIR_LOST (R579): the cap in force falls to 6.0 kW while the other pair is in range. -/
def execClipPairLost (pair : Nat) (s : State) : Out :=
  .next (if ¬ s.power.standby ∨ s.power.pairLost pair then s
    else
      let other := s.power.pairLost (1 - pair)
      let s := { s with power := s.power.setPair pair true }
      if s.awake ∧ ¬ other then (s.setStatus 5).postCap 0 else s)

/-- CLIP_PAIR_RETURN (R579): POWER_CAP takes effect again. -/
def execClipPairReturn (pair : Nat) (s : State) : Out :=
  .next (if s.power.pairLost pair then { s with power := s.power.setPair pair false } else s)

/-- RESET_L_ASSERT (R508, R585): a low level of at least 100 µs, or a shorter one of at least 10 µs that the module takes. -/
def execResetLAssert (us : Nat) (taken : Bool) (s : State) : Out :=
  .next (if 100 ≤ us ∨ (10 ≤ us ∧ taken) then
      let t := if s.power.standby then s.rebootModule else s
      { t with power := { t.power with resetLow := true } }
    else s)

/-- RESET_L_RELEASE (R508, R585): the bays train, and the device is in BOOT_ROM. -/
def execResetLRelease (s : State) : Out :=
  .next (if s.power.resetLow then
      let s := { s with power := { s.power with resetLow := false } }
      if s.power.standby then s.trainBays else s
    else s)

/-- TRIP_WAIT_EXPIRY (R485): 60 s have passed since the trip. -/
def execTripWaitExpiry (s : State) : Out := .next { s with power := { s.power with tripWait := false } }

/-! ### From BOOT_ROM to the tests (R398, R491, R492, R598) -/

/-- An error of the management processor's ROM is recorded; the table of R534 gives ROM no memory code and no location, so both are
free (R510; log 108, DESIGN CHOICE). -/
def State.romError (s : State) (bad : Bool) : State :=
  let m := s.draw
  let l := m.2.draw
  l.2.post { RecSpec.event (if bad then Config.clsUncorrected else Config.clsCorrected) 9 0
      (le (m.1 % 256) 1 ++ zeros 7 ++ le (l.1 % 2 ^ 64) 8 ++ le (b2n !bad) 4) with action := if bad then 0 else 1 }

/-- BOOT_ROM_START (R398, R491): the ROM clocks its helpers and waits for the host; it needs the reference (R598).  `rom` is what the ROM's
144/128 code finds: an error that it corrects, or one that it cannot, which puts the device into FAILED (R510, R512). -/
def execBootRomStart (s : State) (rom : Option Bool := none) : Out :=
  .next (if s.awake ∧ s.regs.devState = Dev.bootRom ∧ s.clocks.pinQualified then
      let s := match rom with
        | some bad => s.romError bad
        | none => s
      if rom = some true then s.enterFailed
      else { s with regs := { s.regs with helperEn := 0x79FF, helperLock := 0x79FF, devState := Dev.awaitHost, step := 1 } }
    else s)

/-- FIELD_POWER_WAVE (R492): the next row of enabled fields is powered; after the seventh the loops lock. -/
def execFieldPowerWave (s : State) : Out :=
  let n := s.boot.wave
  .next (if s.awake ∧ s.regs.devState = Dev.bringup ∧ (s.regs.step = 3 ∨ s.regs.step = 4) ∧ n < 7
        ∧ ¬ s.power.tripWait ∧ ¬ s.power.wavesHeld ∧ s.power.input = 1 then
      let row := ((List.range 8).map (fun i => 8 * n + i)).filter s.fieldPresent
      let s := s.forAll row (fun s f => s.updField f (fun x => { x with powered := true }))
      ({ s with
        regs := { s.regs with step := if n = 6 then 5 else 4 }
        boot := { s.boot with wave := n + 1 } }).beginTests
    else s)

/-- RAIL_REGULATION_TIMEOUT (R492): a rail of the latest wave does not reach regulation. -/
def execRailRegulationTimeout (f : Nat) (s : State) : Out :=
  .next (if s.regs.devState = Dev.bringup ∧ 4 ≤ s.regs.step ∧ f / 8 + 1 = s.boot.wave ∧ (s.field f).powered then
      s.bringupFails (0x80 + f) Config.faultCode
    else s)

/-! ### What a test covers: the whole bring-up, or the fields of a START_TEST (R503) -/

/-- The START_TEST commands of a kind that are outstanding, with their rings, lowest ring first. -/
def State.fieldTests (s : State) (kind : Nat) : List (Nat × Cmd) :=
  s.rings.flatMap (fun (e : Nat × Ring) =>
    (e.2.cmds.filter (fun c => c.opcode == 0x000D && bytesAt c.entry 16 1 == kind)).map (fun c => (e.1, c)))

/-- A test of a kind that ends: the bring-up's, when it runs (`due`), or the first START_TEST of that kind.  `act` takes the fields tested
and whether this is the bring-up. -/
def State.endTest (s : State) (kind : Nat) (due : Bool) (act : State → List Nat → Bool → State) : State :=
  if ¬ s.awake then s
  else if s.regs.devState = Dev.test then
    if due then act s ((List.range 56).filter (fun f => s.fieldPresent f && (s.field f).powered)) true else s
  else
    match (s.fieldTests kind).head? with
    | none => s
    | some (r, c) =>
      let all := maskList (bytesAt c.entry 24 8) 56
      let s := if s.operating then act s (all.filter (fun f => decide ((s.field f).testing = kind + 1))) false else s
      (s.forAll all (fun s f => s.updField f (fun x => { x with testing := 0 }))).finish r c Compl.done

/-- The step of bring-up that begins. -/
def State.toStep (s : State) (n : Nat) : State := { s with regs := { s.regs with step := n } }

/-- The near-tier test and link discovery run side by side; the gate follows when both have ended (R491). -/
def State.bothDone (s : State) : State :=
  if s.boot.linksDone ∧ (s.boot.nearDone ∨ ¬ s.phys.stacked) then s.toStep 9 else s

/-! ### The core-store test (R494, R497) -/

/-- A plan record for a cluster that the search covered: its offset, 20 mV above the lowest that passed, and its cap. -/
def ClusterTest.lead (t : ClusterTest) (l : Lead) : Lead := { l with voff := max (-8) (min 12 (t.lowest + 4)), cap := max 8 (min 33 t.cap) }

/-- One cluster's findings: its plan record, its dead cores (origin 1), and its retirement (R494); `before` is the state in which the
test began. -/
def State.clusterTested (before s : State) (t : ClusterTest) : State :=
  let s := s.updLead t.cluster t.lead
  let dead := (clusterCores t.cluster).filter (fun c => t.deadCores.contains c && before.present c)
  let s := s.forAll dead (fun s c => s.appendHb (s.deadSite c 1) none 1 c)
  if t.finalFail then s.appendHb (retiredEntry t.cluster 1) none 2 t.cluster else s

/-- A setpoint for each enabled field whose plan has none: 700 to 850 mV, a multiple of 5 (R525). -/
def State.fillSetpoints (s : State) : State :=
  s.forAll ((List.range 56).filter (fun f => s.fieldEnabled f && decide (Map.get 0 s.plan.setpoints f = 0))) (fun s f =>
    let d := s.draw
    { d.2 with plan := { d.2.plan with setpoints := Map.set 0 d.2.plan.setpoints f (700 + 5 * (d.1 % 31)) } })

/-- CORE_STORE_TEST_DONE (R494): the findings become dead sites, retired clusters and a new plan, which takes effect at once
(R528, R529).  Link discovery begins, and in a stacked build the near-tier test has begun with the final pass (R491, R495). -/
def execCoreStoreTestDone (ts : List ClusterTest) (s : State) : Out :=
  .next (s.endTest 0 (s.regs.step == 6) (fun s fields boot =>
    let l := ts.filter (fun t => isCluster t.cluster && fields.contains (clusterField t.cluster) && s.clusterPresent t.cluster)
    let s := s.forAll l s.clusterTested
    let s := if boot then s.recompute 64 else s
    let s := (s.fillSetpoints.extendChain).applyPlan
    if boot then s.toStep 8 else s))

/-! ### The near-tier test (R495) -/

/-- A station after its test: zeros, and its granules that cannot be repaired. -/
def Station.tested (m : Station) (granules : List Nat) : Station :=
  { m with mem := [], ecc := [], comb := [], granules := (m.granules ++ granules).eraseDups }

/-- NEAR_TIER_TEST_DONE (R495): `gs` names the retired granules by near-tier address. -/
def execNearTierTestDone (gs : List Nat) (s : State) : Out :=
  .next (s.endTest 1 (s.regs.step == 8 && s.phys.stacked && !s.boot.nearDone) (fun s fields boot =>
    let ns := fields.flatMap (fun f => (List.range 8).map (fun i => 8 * f + i))
    let mine := (gs.filter (fun a => decide (a < 2 ^ 42 ∧ a % 2 ^ 33 < bufferBase) && ns.contains (a / 2 ^ 33))).map (fun a => a / 4096 * 4096)
    let s := s.forAll ns (fun s n => s.updStation n (fun m =>
      m.tested ((mine.filter (fun a => a / 2 ^ 33 == n)).map (fun a => a % 2 ^ 33 / 4096))))
    if boot then ({ s with boot := { s.boot with granules := mine.eraseDups, nearDone := true } }).bothDone else s))

/-! ### Link discovery (R496) -/

/-- One link's detections: any uncorrectable one, or more than 16 correctable, make it dead (origin 2). -/
def State.linkTested (s : State) (l : Nat × Nat × Nat × Nat) : State :=
  let c := l.1
  let d := l.2.1
  let joined := s.present c && (match s.neighbour c d with
    | some n => s.present n
    | none => false)
  if joined ∧ ¬ s.linkDeadIn s.hellbox c d ∧ (16 < l.2.2.1 ∨ 0 < l.2.2.2) then
    s.appendHb (s.deadLink c d 2) none 7 (c + 2 ^ 18 * d)
  else s

/-- LINK_DISCOVERY_DONE (R496): dead links, retired clusters, or a failure of the edge that ends the bring-up. -/
def execLinkDiscoveryDone (t : LinkTest) (s : State) : Out :=
  .next (s.endTest 2 (s.regs.step == 8 && !s.boot.linksDone) (fun s fields boot =>
    if t.edgeFail ∧ boot then s.bringupFails 0xC0 Config.faultCode
    else
      let links := t.links.filter (fun l => isCore l.1 && decide (l.2.1 < 4) && fields.contains (fieldOf l.1))
      let s := s.forAll links State.linkTested
      let segs := t.segments.eraseDups.filter (fun k => isCluster k && fields.contains (clusterField k) && s.clusterPresent k)
      let s := s.forAll segs (fun s k => s.appendHb (retiredEntry k 2) none 2 k)
      if boot then ({ s with boot := { s.boot with linksDone := true } }).bothDone else s))

/-! ### The readiness gate (R499, R500) -/

/-- The 16 bytes of a gate report entry. -/
def gateEntry (kind : Nat) (data : Bytes) : Bytes := le kind 1 ++ zeros 7 ++ padTo data 8

/-- The differences between the expected topology and the one that the tests left (R499). -/
def State.gateDiffs (s : State) : List Bytes :=
  (s.hellbox.drop s.boot.expectedHb).map (fun e => gateEntry 1 e.bytes)
    ++ s.boot.granules.map (fun a => gateEntry 2 (le a 8))
    ++ ((List.range 2).filter (fun b => decide ((s.bay b).width = 0) && (match s.enable with
        | some e => e.bays.testBit b
        | none => false))).map (fun b => gateEntry 3 (le b 8))
    ++ ((List.range 56).filter (fun f => s.fieldEnabled f && (s.field f).dark)).map (fun f => gateEntry 4 (le f 8))

/-- The gate report (R500); its count of cycles is a free value. -/
def State.gateReport (s : State) (l : List Bytes) : Bytes :=
  let written := min l.length ((s.boot.reportCap - 64) / 16)
  le 0x45544147 4 ++ le 1 2 ++ le (if l.isEmpty then 4 else 5) 1 ++ le (b2n s.regs.quick) 1 ++ le s.mapGen 4 ++ le l.length 4
    ++ le written 4 ++ zeros 4 ++ le s.draw.1 8 ++ zeros 32 ++ (l.take written).flatten

/-- READINESS_GATE (R499, R500): the report, then READY, or DEGRADED with its flag. -/
def execReadinessGate (s : State) : Out :=
  let l := s.gateDiffs
  let b := s.boot
  .next (if s.awake ∧ s.regs.devState = Dev.test ∧ s.regs.step = 9 ∧ (b.reportAddr = 0 ∨ (s.bay s.regs.bootBay).width ≠ 0) then
      let t := if b.reportAddr = 0 ∨ b.reportCap < 64 then s else s.draw.2.hostPut b.reportAddr (s.gateReport l) false
      let t := t.toStep 10
      if l.isEmpty then { t with regs := { t.regs with devState := Dev.ready } }
      else ({ t with regs := { t.regs with devState := Dev.degraded } }).setStatus 7
    else s)

end Sys2Proof.Machine
end

