-- ==== Sys2Proof/Machine/Dispatch.lean ====
section
/-! DEFINITION. One arm per command; each calls its meaning. -/

namespace Sys2Proof.Machine

/-- The effect of a command on everything but the queue. -/
def exec (i : Instr) (s : State) : Host.Outcome State Fault Refusal :=
  match i with
  | .nop c o => Sys2Proof.Machine.execNop c o s
  | .endBlock c o => Sys2Proof.Machine.execEndBlock c o s
  | .fence c o => Sys2Proof.Machine.execFence c o s
  | .qarr c o => Sys2Proof.Machine.execQarr c o s
  | .br c o => Sys2Proof.Machine.execBr c o s
  | .dbnz c o => Sys2Proof.Machine.execDbnz c o s
  | .plog c o => Sys2Proof.Machine.execPlog c o s
  | .salu c o => Sys2Proof.Machine.execSalu c o s
  | .addi c o => Sys2Proof.Machine.execAddi c o s
  | .andi c o => Sys2Proof.Machine.execAndi c o s
  | .ori c o => Sys2Proof.Machine.execOri c o s
  | .xori c o => Sys2Proof.Machine.execXori c o s
  | .shi c o => Sys2Proof.Machine.execShi c o s
  | .movl c o => Sys2Proof.Machine.execMovl c o s
  | .movh c o => Sys2Proof.Machine.execMovh c o s
  | .cmp c o => Sys2Proof.Machine.execCmp c o s
  | .cmpi c o => Sys2Proof.Machine.execCmpi c o s
  | .ldw c o => Sys2Proof.Machine.execLdw c o s
  | .stw c o => Sys2Proof.Machine.execStw c o s
  | .vld c o => Sys2Proof.Machine.execVld c o s
  | .vst c o => Sys2Proof.Machine.execVst c o s
  | .csr c o => Sys2Proof.Machine.execCsr c o s
  | .csw c o => Sys2Proof.Machine.execCsw c o s
  | .scfg c o => Sys2Proof.Machine.execScfg c o s
  | .ben c o => Sys2Proof.Machine.execBen c o s
  | .vadd c o => Sys2Proof.Machine.execVadd c o s
  | .vsub c o => Sys2Proof.Machine.execVsub c o s
  | .vmul c o => Sys2Proof.Machine.execVmul c o s
  | .vfma c o => Sys2Proof.Machine.execVfma c o s
  | .vmin c o => Sys2Proof.Machine.execVmin c o s
  | .vmax c o => Sys2Proof.Machine.execVmax c o s
  | .vun c o => Sys2Proof.Machine.execVun c o s
  | .vbcast c o => Sys2Proof.Machine.execVbcast c o s
  | .vext c o => Sys2Proof.Machine.execVext c o s
  | .vrow c o => Sys2Proof.Machine.execVrow c o s
  | .vshuf c o => Sys2Proof.Machine.execVshuf c o s
  | .vint c o => Sys2Proof.Machine.execVint c o s
  | .vcmp c o => Sys2Proof.Machine.execVcmp c o s
  | .vsel c o => Sys2Proof.Machine.execVsel c o s
  | .vsum c o => Sys2Proof.Machine.execVsum c o s
  | .vcvt c o => Sys2Proof.Machine.execVcvt c o s
  | .vtr c o => Sys2Proof.Machine.execVtr c o s
  | .prod c o => Sys2Proof.Machine.execProd c o s
  | .pclr c o => Sys2Proof.Machine.execPclr c o s
  | .drain c o => Sys2Proof.Machine.execDrain c o s
  | .lstat c o => Sys2Proof.Machine.execLstat c o s
  | .ldot c o => Sys2Proof.Machine.execLdot c o s
  | .tclaim c o => Sys2Proof.Machine.execTclaim c o s
  | .twrv c o => Sys2Proof.Machine.execTwrv c o s
  | .twrm c o => Sys2Proof.Machine.execTwrm c o s
  | .trel c o => Sys2Proof.Machine.execTrel c o s
  | .chopen c o => Sys2Proof.Machine.execChopen c o s
  | .chlisten c o => Sys2Proof.Machine.execChlisten c o s
  | .chclose c o => Sys2Proof.Machine.execChclose c o s
  | .sendv c o => Sys2Proof.Machine.execSendv c o s
  | .sendm c o => Sys2Proof.Machine.execSendm c o s
  | .grdv c o => Sys2Proof.Machine.execGrdv c o s
  | .grds c o => Sys2Proof.Machine.execGrds c o s
  | .gcopy c o => Sys2Proof.Machine.execGcopy c o s
  | .readinessEvaluation c o => Sys2Proof.Machine.execReadinessEvaluation c o s
  | .blockCommit c o => Sys2Proof.Machine.execBlockCommit c o s
  | .replayBlock c => Sys2Proof.Machine.execReplayBlock c s
  | .suspectWindowExpiry k => Sys2Proof.Machine.execSuspectWindowExpiry k s
  | .steerForward c u o => Sys2Proof.Machine.execSteerForward c u o s
  | .route c p v o => Sys2Proof.Machine.execRoute c p v o s
  | .routerForward c d v => Sys2Proof.Machine.execRouterForward c d v s
  | .linkScoreWindowEnd c => Sys2Proof.Machine.execLinkScoreWindowEnd c s
  | .reduceForward c n expired => Sys2Proof.Machine.execReduceForward c n expired s
  | .galleyWrite c v => Sys2Proof.Machine.execGalleyWrite c v s
  | .connectMsg u => Sys2Proof.Machine.execConnectMsg u s
  | .acceptMsg c => Sys2Proof.Machine.execAcceptMsg c s
  | .refuseMsg c => Sys2Proof.Machine.execRefuseMsg c s
  | .closeMsg c => Sys2Proof.Machine.execCloseMsg c s
  | .creditMsg c => Sys2Proof.Machine.execCreditMsg c s
  | .combiningAdd c g o => Sys2Proof.Machine.execCombiningAdd c g o s
  | .spillCreditGrant c g => Sys2Proof.Machine.execSpillCreditGrant c g s
  | .spillRefill c g => Sys2Proof.Machine.execSpillRefill c g s
  | .quoinRelease f t => Sys2Proof.Machine.execQuoinRelease f t s
  | .deadlock f => Sys2Proof.Machine.execDeadlock f s
  | .patienceExpiry f => Sys2Proof.Machine.execPatienceExpiry f s
  | .coreLost c power => Sys2Proof.Machine.execCoreLost c power s
  | .formeDrainDone f => Sys2Proof.Machine.execFormeDrainDone f s
  | .loadLeading r => Sys2Proof.Machine.execLoadLeading r s
  | .setClocks r => Sys2Proof.Machine.execSetClocks r s
  | .clockChange n => Sys2Proof.Machine.execClockChange n s
  | .openForme r => Sys2Proof.Machine.execOpenForme r s
  | .closeForme r => Sys2Proof.Machine.execCloseForme r s
  | .resetForme r => Sys2Proof.Machine.execResetForme r s
  | .resetCluster r => Sys2Proof.Machine.execResetCluster r s
  | .resetCore r => Sys2Proof.Machine.execResetCore r s
  | .openWindow r => Sys2Proof.Machine.execOpenWindow r s
  | .bindFeeder r => Sys2Proof.Machine.execBindFeeder r s
  | .unbindFeeder r => Sys2Proof.Machine.execUnbindFeeder r s
  | .setStereo r => Sys2Proof.Machine.execSetStereo r s
  | .query r => Sys2Proof.Machine.execQuery r s
  | .attest r => Sys2Proof.Machine.execAttest r s
  | .startTest r => Sys2Proof.Machine.execStartTest r s
  | .hellboxExport r => Sys2Proof.Machine.execHellboxExport r s
  | .nopCommand r => Sys2Proof.Machine.execNopCommand r s
  | .loadImposition r => Sys2Proof.Machine.execLoadImposition r s
  | .loadTensor r => Sys2Proof.Machine.execLoadTensor r s
  | .readTensor r => Sys2Proof.Machine.execReadTensor r s
  | .streamLayer r => Sys2Proof.Machine.execStreamLayer r s
  | .run r => Sys2Proof.Machine.execRun r s
  | .waitQuoin r => Sys2Proof.Machine.execWaitQuoin r s
  | .accumulateOut r => Sys2Proof.Machine.execAccumulateOut r s
  | .updateCommand r => Sys2Proof.Machine.execUpdateCommand r s
  | .contextAlloc r => Sys2Proof.Machine.execContextAlloc r s
  | .contextFree r => Sys2Proof.Machine.execContextFree r s
  | .resendParts r => Sys2Proof.Machine.execResendParts r s
  | .fenceCommand r => Sys2Proof.Machine.execFenceCommand r s
  | .mark r => Sys2Proof.Machine.execMark r s
  | .partCompletion r sq part stores => Sys2Proof.Machine.execPartCompletion r sq part stores s
  | .doorbellSnoop r stores => Sys2Proof.Machine.execDoorbellSnoop r stores s
  | .consumerLineSnoop r stores => Sys2Proof.Machine.execConsumerLineSnoop r stores s
  | .eventRecordWrite => Sys2Proof.Machine.execEventRecordWrite s
  | .reportRecordWrite => Sys2Proof.Machine.execReportRecordWrite s
  | .proofRecordWrite => Sys2Proof.Machine.execProofRecordWrite s
  | .stationRead n o => Sys2Proof.Machine.execStationRead n o s
  | .stationWrite n o => Sys2Proof.Machine.execStationWrite n o s
  | .gather n o => Sys2Proof.Machine.execGather n o s
  | .scatter n o => Sys2Proof.Machine.execScatter n o s
  | .accum n o => Sys2Proof.Machine.execAccum n o s
  | .convert n o => Sys2Proof.Machine.execConvert n o s
  | .stationUpdate n o => Sys2Proof.Machine.execStationUpdate n o s
  | .ctxAlloc n o => Sys2Proof.Machine.execCtxAlloc n o s
  | .ctxResolve n o => Sys2Proof.Machine.execCtxResolve n o s
  | .ctxFree n o => Sys2Proof.Machine.execCtxFree n o s
  | .flush n o => Sys2Proof.Machine.execFlush n o s
  | .orderedReplayApply n => Sys2Proof.Machine.execOrderedReplayApply n s
  | .patrolScrub n o => Sys2Proof.Machine.execPatrolScrub n o s
  | .selfRefreshEntry n => Sys2Proof.Machine.execSelfRefreshEntry n s
  | .accumOrderRecordClose n bucket st => Sys2Proof.Machine.execAccumOrderRecordClose n bucket st s
  | .portRead p => Sys2Proof.Machine.execPortRead p s
  | .portWrite p => Sys2Proof.Machine.execPortWrite p s
  | .gradOp p => Sys2Proof.Machine.execGradOp p s
  | .frameCloseTimeout p g => Sys2Proof.Machine.execFrameCloseTimeout p g s
  | .frameTransmit p => Sys2Proof.Machine.execFrameTransmit p s
  | .weightData p f => Sys2Proof.Machine.execWeightData p f s
  | .readRsp p f => Sys2Proof.Machine.execReadRsp p f s
  | .sync p f => Sys2Proof.Machine.execSync p f s
  | .cancel p f => Sys2Proof.Machine.execCancel p f s
  | .wspCredit p f => Sys2Proof.Machine.execWspCredit p f s
  | .ack p f => Sys2Proof.Machine.execAck p f s
  | .nak p f => Sys2Proof.Machine.execNak p f s
  | .hello p f => Sys2Proof.Machine.execHello p f s
  | .poisonNotice p f => Sys2Proof.Machine.execPoisonNotice p f s
  | .helloTimer p => Sys2Proof.Machine.execHelloTimer p s
  | .ackTimer p => Sys2Proof.Machine.execAckTimer p s
  | .retransmitTimeout p => Sys2Proof.Machine.execRetransmitTimeout p s
  | .creditRepeat p => Sys2Proof.Machine.execCreditRepeat p s
  | .holdExpiry p => Sys2Proof.Machine.execHoldExpiry p s
  | .trainingTimeout p => Sys2Proof.Machine.execTrainingTimeout p s
  | .pcsAligned p => Sys2Proof.Machine.execPcsAligned p s
  | .pcsAlignmentLost p => Sys2Proof.Machine.execPcsAlignmentLost p s
  | .moduleInsert p taui8 watts => Sys2Proof.Machine.execModuleInsert p taui8 watts s
  | .moduleRemove p => Sys2Proof.Machine.execModuleRemove p s
  | .hostRead b stores => Sys2Proof.Machine.execHostRead b stores s
  | .hostWrite b => Sys2Proof.Machine.execHostWrite b s
  | .reportOp b => Sys2Proof.Machine.execReportOp b s
  | .hostLinkDown b => Sys2Proof.Machine.execHostLinkDown b s
  | .hostLinkRetrain b width => Sys2Proof.Machine.execHostLinkRetrain b width s
  | .helperClkEnWrite a => Sys2Proof.Machine.execHelperClkEnWrite a s
  | .mailboxBootWrite a stores => Sys2Proof.Machine.execMailboxBootWrite a stores s
  | .ringEnable a => Sys2Proof.Machine.execRingEnable a s
  | .ringDisable a => Sys2Proof.Machine.execRingDisable a s
  | .ringIrqWrite a => Sys2Proof.Machine.execRingIrqWrite a s
  | .containmentDefaultWrite a => Sys2Proof.Machine.execContainmentDefaultWrite a s
  | .powerCapWrite a => Sys2Proof.Machine.execPowerCapWrite a s
  | .statusResetWrite a => Sys2Proof.Machine.execStatusResetWrite a s
  | .w1cFlagWrite a => Sys2Proof.Machine.execW1cFlagWrite a s
  | .registerWrite a => Sys2Proof.Machine.execRegisterWrite a s
  | .fieldGovernorEvaluation f m => Sys2Proof.Machine.execFieldGovernorEvaluation f m s
  | .pendingDarkLimit f => Sys2Proof.Machine.execPendingDarkLimit f s
  | .moduleGovernorUpdate m => Sys2Proof.Machine.execModuleGovernorUpdate m s
  | .softStartInterval k => Sys2Proof.Machine.execSoftStartInterval k s
  | .droopTrip f => Sys2Proof.Machine.execDroopTrip f s
  | .droopEnd f => Sys2Proof.Machine.execDroopEnd f s
  | .clockSlewStep k => Sys2Proof.Machine.execClockSlewStep k s
  | .inputQualified v => Sys2Proof.Machine.execInputQualified v s
  | .inputLostQualification v => Sys2Proof.Machine.execInputLostQualification v s
  | .loopLock k => Sys2Proof.Machine.execLoopLock k s
  | .loopLockLoss k => Sys2Proof.Machine.execLoopLockLoss k s
  | .stationClockFloor n => Sys2Proof.Machine.execStationClockFloor n s
  | .ageingMeasurement ms => Sys2Proof.Machine.execAgeingMeasurement ms s
  | .correctedWindowEnd u mem => Sys2Proof.Machine.execCorrectedWindowEnd u mem s
  | .checkpoint ram => Sys2Proof.Machine.execCheckpoint s ram
  | .signatureComplete => Sys2Proof.Machine.execSignatureComplete s
  | .announceTimer => Sys2Proof.Machine.execAnnounceTimer s
  | .subscribe d => Sys2Proof.Machine.execSubscribe d s
  | .subscriptionExpiry src => Sys2Proof.Machine.execSubscriptionExpiry src s
  | .resend d => Sys2Proof.Machine.execResend d s
  | .managementPortUp => Sys2Proof.Machine.execManagementPortUp s
  | .deviceReset ram => Sys2Proof.Machine.execDeviceReset s ram
  | .resetDeviceContainment => Sys2Proof.Machine.execResetDeviceContainment s
  | .powerGood => Sys2Proof.Machine.execPowerGood s
  | .bootRomStart rom => Sys2Proof.Machine.execBootRomStart s rom
  | .identityDerivation k selfTest stores => Sys2Proof.Machine.execIdentityDerivation k selfTest stores s
  | .fieldPowerWave => Sys2Proof.Machine.execFieldPowerWave s
  | .railRegulationTimeout f => Sys2Proof.Machine.execRailRegulationTimeout f s
  | .coreStoreTestDone ts => Sys2Proof.Machine.execCoreStoreTestDone ts s
  | .nearTierTestDone gs => Sys2Proof.Machine.execNearTierTestDone gs s
  | .linkDiscoveryDone t => Sys2Proof.Machine.execLinkDiscoveryDone t s
  | .readinessGate => Sys2Proof.Machine.execReadinessGate s
  | .tripWaitExpiry => Sys2Proof.Machine.execTripWaitExpiry s
  | .inputRise => Sys2Proof.Machine.execInputRise s
  | .inputOutOfRange => Sys2Proof.Machine.execInputOutOfRange s
  | .inputReturn => Sys2Proof.Machine.execInputReturn s
  | .inputLost => Sys2Proof.Machine.execInputLost s
  | .clipPairLost p => Sys2Proof.Machine.execClipPairLost p s
  | .clipPairReturn p => Sys2Proof.Machine.execClipPairReturn p s
  | .resetLAssert us taken => Sys2Proof.Machine.execResetLAssert us taken s
  | .resetLRelease => Sys2Proof.Machine.execResetLRelease s
  | .managementPortDown => Sys2Proof.Machine.execManagementPortDown s
  | .routerAdvertisement pfx => Sys2Proof.Machine.execRouterAdvertisement pfx s

end Sys2Proof.Machine
end

