-- ==== Sys2Proof/Safety.lean ====
section
/-! DEFINITION. The words in which the statements speak: a quiet step, a core that executes an instruction, and the rows of a
core's instructions. -/

namespace Sys2Proof.Machine

/-- A step during which no storage is upset and no check differs. -/
def Obs.quiet : Obs := { upsets := [], residue := false, checker := none, parity := false }

/-- A routing step during which no codeword is upset and the header's parity is good. -/
def LinkObs.quiet : LinkObs := { headerParity := false, flips := [], parity := false }

/-- Whether no field waits for its layer quoin to go dark. -/
abbrev State.NoPending (s : State) : Prop := ∀ e ∈ s.fields, e.2.pendingDark = false

/-- No command of a ring has ended and waits for its writes to be visible. -/
abbrev State.NoneEnded (s : State) : Prop := ∀ e ∈ s.rings, ∀ d ∈ e.2.cmds, d.ended = none

/-- The word at a core's issue index. -/
def State.wordAtPc (s : State) (c : Nat) : Nat := (Map.get 0 (s.core c).istore (s.core c).pc).toNat

/-- A core issues the sound word `w` of row `row`: it runs a block of a RUNNING forme and the word's check bits are clean. -/
def State.fetches (s : State) (c row w : Nat) : Prop :=
  s.issues c = true ∧ s.wordAtPc c = w ∧ Map.get Cw.clean (s.core c).iecc ((s.core c).pc / 4) = .clean ∧ Sys2Proof.Machine.rowOf w = row

/-- A core issues and executes the legal word `w` of row `row`: its predicate holds. -/
def State.runs (s : State) (c row w : Nat) : Prop :=
  s.fetches c row w ∧ legal w = true ∧ (s.core c).pred w = true

/-- The rows of the table of steps that are instructions of a core, each with its command. -/
def coreRows : List (Nat × (Nat → Obs → Instr)) :=
  [(64, .nop), (65, .endBlock), (66, .fence), (67, .qarr), (0x01, .br), (0x02, .dbnz), (0x03, .plog), (0x04, .salu),
   (0x05, .addi), (0x06, .andi), (0x07, .ori), (0x08, .xori), (0x09, .shi), (0x0A, .movl), (0x0B, .movh), (0x0C, .cmp),
   (0x0D, .cmpi), (0x0E, .ldw), (0x0F, .stw), (0x10, .vld), (0x11, .vst), (0x12, .csr), (0x13, .csw), (0x15, .scfg),
   (0x16, .ben), (0x18, .vadd), (0x19, .vsub), (0x1A, .vmul), (0x1B, .vfma), (0x1C, .vmin), (0x1D, .vmax), (0x1E, .vun),
   (0x1F, .vbcast), (0x20, .vext), (0x21, .vrow), (0x22, .vshuf), (0x23, .vint), (0x24, .vcmp), (0x25, .vsel),
   (0x26, .vsum), (0x27, .vcvt), (0x28, .vtr), (0x2A, .prod), (0x2B, .pclr), (0x2C, .drain), (0x2D, .lstat),
   (0x2E, .ldot), (0x30, .tclaim), (0x31, .twrv), (0x32, .twrm), (0x33, .trel), (0x38, .chopen), (0x39, .chlisten),
   (0x3A, .chclose), (0x3B, .sendv), (0x3C, .sendm), (0x3D, .grdv), (0x3E, .grds), (0x3F, .gcopy)]

/-- The command that the entry at the head of a submission ring gives. -/
def State.headCmd (s : State) (r : Nat) (e : Nat × Bytes) : Cmd :=
  Cmd.ofEntry e.1 e.2 (match (s.ring r).fences.find? (fun x => x.1 == e.1) with
    | some x => x.2
    | none => [])

/-- The state in which a ring has taken a command from its entries. -/
def State.taken (s : State) (r : Nat) (c : Cmd) : State := s.updRing r (·.take c)

/-- A ring starts its oldest entry as the command `c`: nothing holds it, its DEP is met, and no check of R423 refuses it. -/
def State.starts (s : State) (r op : Nat) (c : Cmd) : Prop :=
  ∃ e, s.startable r = some e ∧ c = s.headCmd r e ∧ c.opcode = op ∧ (s.ring r).depFails e.2 = false ∧ s.refusedAtStart r c = none

/-- A command is no longer outstanding on its ring. -/
def State.isDone (s : State) (r sq : Nat) : Prop := (s.ring r).cmd sq = none

/-- No FENCE is outstanding on any ring. -/
abbrev State.noFence (s : State) : Prop := ∀ e ∈ s.rings, ∀ d ∈ e.2.cmds, d.opcode ≠ 0x100C

/-- A station takes the core request `m` of operation `op` next: it is present, its clock ratios hold, no test runs on it, the request's
descriptor keeps to R314 and R315, and no earlier response of its channel waits. -/
def State.serves (s : State) (n op : Nat) (m : Msg) : Prop :=
  (s.station n).next = some m ∧ m.typ = MT.stationOp ∧ s.ratioBroken n = false ∧ s.stationPresent n = true ∧
    s.nearTesting (n / 8) = false ∧ m.requestOk = true ∧ dOp m.desc = op ∧ m.fromHost = false ∧
    (s.station n).answers.any (fun a => a.along m) = false

/-- No codeword of a payload was upset on its way. -/
abbrev soundSlots (l : List Slot) : Prop := ∀ w ∈ codewords l, w = .clean ∨ w = .poison

/-- No codeword of a station's memory, combining area or context table waits to be corrected or turned into poison, and the area holds
no line twice. -/
def Station.sound (x : Station) : Prop :=
  (∀ k, Map.get Cw.clean x.ecc k = .clean ∨ Map.get Cw.clean x.ecc k = .poison) ∧ soundSlots (x.comb.map (·.slot)) ∧
    (x.comb.map (·.line)).Nodup ∧ ∀ e ∈ x.ctx, e.2.cw = .clean ∨ e.2.cw = .poison

/-- The state in which a station stands as `y`, the recorder and the free counter as they are given, and the answer to a request has
entered the fabric. -/
def State.answers (s : State) (n : Nat) (m : Msg) (y : Station) (rec : Recorder) (fr : Nat) (data : List Slot) (st : Status) : State :=
  ({ s.setStation n y with recorder := rec, free := fr }).enter (m.reply.msg MT.stationRsp n 511 data st)

/-- Element `i` of `w` bits, from an offset of a memory. -/
def Mem.elem (m : Mem) (w off i : Nat) : Nat := ofLe (m.readN (off + i * (w / 8)) (w / 8))

/-- A frame of a type arrives at a port that is UP and fast enough for its line, and its MAC and header checks pass. -/
def State.framed (s : State) (p : Nat) (f : RxFrame) (typ : Nat) : Prop :=
  (s.fport p).link = 3 ∧ 790 ≤ s.portMHz p ∧ s.macOk p f = true ∧ f.frame.ver = 1 ∧ f.frame.typ = typ

/-- A port serves the core request `m` of operation `op` next. -/
def State.portServes (s : State) (p op : Nat) (m : Msg) (b : Binding) : Prop :=
  (s.fport p).ops.find? (fun m => m.typ == MT.portOp) = some m ∧ dOp m.desc = op ∧ portOpOk m = true ∧ (s.fport p).link = 3 ∧
    (s.fport p).bound = some b ∧ b.forme = m.forme

/-- A part of a split command has ended with a status, or its command with it. -/
def State.partEnds (s : State) (q : PartRef) (st : Nat) : Prop := ∀ x, s.part q = some x → x.done = some st

/-- No acknowledgement is outstanding at a port that could make a WRITE or GRAD_ACCUM final. -/
abbrev FPort.settled (p : FPort) : Prop := p.retry = [] ∧ p.pendAcks = [] ∧ ∀ t ∈ p.txns, t.kind ≠ 2 ∧ t.kind ≠ 3

/-- A port after the FEC blocks that came with a frame are counted. -/
def FPort.counted (p : FPort) (f : RxFrame) : FPort :=
  { p with fecCorr := satAdd p.fecCorr f.fecCorr 32, fecUncorr := satAdd p.fecUncorr f.fecUncorr 32 }

/-- A port after it has taken a sequenced frame in order, whose payload may still wait: the next number is due, and one more
acknowledgement is owed. -/
def FPort.tookHeld (p : FPort) (f : RxFrame) : FPort :=
  let x := { p.counted f with
    rxNext := (p.rxNext + 1) % 65536, nakFor := none, owed := true, unreported := p.unreported + 1,
    cwDetect := satAdd p.cwDetect (detections f.frame.slots) 32 }
  if 32 ≤ x.unreported then x.sendAck else x

/-- A port after it has taken a sequenced frame in order and freed its units again. -/
def FPort.tookFrame (p : FPort) (f : RxFrame) : FPort := (p.tookHeld f).consume f.frame

/-- Every stream transaction of a port that is not cancelled serves a part that has not ended. -/
def State.streamsLive (s : State) (p : Nat) : Prop :=
  ∀ t ∈ (s.fport p).txns, t.kind = 1 → t.cancelled = true ∨ ∃ q x, t.part = some q ∧ s.part q = some x ∧ x.done = none

/-- The core request that a bay serves next is of operation `op` and well-formed, and the bay's link is up. -/
def State.bayServes (s : State) (b op : Nat) (m : Msg) : Prop :=
  s.bayNext b = some m ∧ dOp m.desc = op ∧ bayOpOk m = true ∧ (s.bay b).width ≠ 0

/-- The commands of the rings by opcode; BIND_FEEDER's two forms apart. -/
def ringRows : List (Nat × (Nat → Instr)) :=
  [(0x0001, .loadLeading), (0x0002, .setClocks), (0x0003, .openForme), (0x0004, .closeForme), (0x0005, .resetForme),
   (0x0006, .resetCluster), (0x0007, .resetCore), (0x0008, .openWindow), (0x000A, .setStereo), (0x000B, .query),
   (0x000C, .attest), (0x000D, .startTest), (0x000E, .hellboxExport), (0x1000, .nopCommand), (0x1001, .loadImposition),
   (0x1002, .loadTensor), (0x1003, .readTensor), (0x1004, .streamLayer), (0x1005, .run), (0x1006, .waitQuoin),
   (0x1007, .accumulateOut), (0x1008, .updateCommand), (0x1009, .contextAlloc), (0x100A, .contextFree),
   (0x100B, .resendParts), (0x100C, .fenceCommand), (0x100D, .mark)]

end Sys2Proof.Machine
end

