-- ==== Sys2Proof/Certificates/Slice0/Obligations.lean ====
section
/-! DEFINITION. The statements for the provers, each a proposition about the module. -/

open Sys2Proof Sys2Proof.Machine

/-! ### The step and its queue -/

/-- A step takes the front command of the queue, gives it the state with the rest of the queue, and answers what the command
answers.

On an empty queue the module idles (the model's choice, log 11, DESIGN CHOICE). -/
def Obligations.StepQueue : Prop :=
  (∀ (c : Instr) (rest : List Instr) (s : State),
     step { s with pending := c :: rest } = exec c { s with pending := rest }) ∧
  (∀ s : State, s.pending = [] → step s = .next s)

/-! ### Register files -/

/-- s0 reads as zero and p0 as true, neither takes a write, and every other register holds what was last written to it while the
others stay (R55). -/
def Obligations.RegisterFiles : Prop :=
  (∀ (x : Core) (v : Word), x.rdS 0 = 0 ∧ x.wrS 0 v = x) ∧
  (∀ (x : Core) (v : Bool), x.rdP 0 = true ∧ x.wrP 0 v = x) ∧
  (∀ (x : Core) (r q : Nat) (v : Word), r ≠ 0 → (x.wrS r v).rdS q = if q = r then v else x.rdS q) ∧
  (∀ (x : Core) (r q : Nat) (v : Bool), r ≠ 0 → (x.wrP r v).rdP q = if q = r then v else x.rdP q) ∧
  (∀ (x : Core) (r q : Nat) (v : VReg), (x.wrV r v).rdV q = if q = r then v else x.rdV q)

/-! ### Issue -/

/-- An instruction executes when p[pr] XOR pn is 1, and one whose predicate is false writes nothing and raises no fault: the core
only goes on to the next index, and nothing else of the module changes (R165).  It holds for every instruction of a core.

A word that is no legal instruction stops its core with ILLEGAL whatever its predicate, under the command of its row, and records
the word in CS_FAULT_INFO and the code in CS_FAULT; here and below, a stop is told of while no field waits for its layer quoin, since
the fault of the forme ends that wait (R307).

A command of a row that is not the row of the word at the core's issue index is no step of the module: nothing changes. -/
def Obligations.IssueRules : Prop :=
  (∀ (x : Core) (w : Nat), x.pred w = (x.rdP (bits w 25 23) ^^ bit w 22)) ∧
  (∀ r ∈ coreRows, ∀ (s : State) (c w : Nat), s.fetches c r.1 w → legal w = true → (s.core c).pred w = false →
     exec (r.2 c Obs.quiet) s = .next (s.updCore c (fun x => { x with pc := (x.pc + 1) % 4096 }))) ∧
  (∀ r ∈ coreRows, ∀ (s : State) (c w : Nat), s.fetches c r.1 w → legal w = false → s.NoPending →
     ∃ t, exec (r.2 c Obs.quiet) s = .next t ∧ (t.core c).st = .stopped ∧ (t.core c).faultInfo = BitVec.ofNat 32 w
       ∧ (t.core c).fault = BitVec.ofNat 32 ((s.core c).pc * 2 ^ 14 + (s.core c).block * 2 ^ 8 + 1)
       ∧ (t.core c).s = (s.core c).s ∧ (t.core c).v = (s.core c).v ∧ (t.core c).store = (s.core c).store) ∧
  (∀ r ∈ coreRows, ∀ (s : State) (c w row : Nat), s.fetches c row w → legal w = true → row ≠ r.1 →
     exec (r.2 c Obs.quiet) s = .next s)

/-! ### Control and scalar instructions -/

/-- NOP changes the issue index only, END ends issue, FENCE orders every earlier core-store write, QARR sets the arrival's tree,
BR issues from its target, and DBNZ decrements and branches while the result is not zero (R171, R172).  Nothing else changes.

Under these premises each of nop, endBlock, fence, qarr, br and dbnz answers a next state. -/
def Obligations.ControlInstructions : Prop :=
  ∀ (s : State) (c w : Nat),
    let x := { s.core c with pc := ((s.core c).pc + 1) % 4096 }
    (s.runs c 64 w → exec (.nop c Obs.quiet) s = .next (s.setCore c x)) ∧
    (s.runs c 65 w → exec (.endBlock c Obs.quiet) s = .next (s.setCore c { x with ended := true })) ∧
    (s.runs c 66 w → exec (.fence c Obs.quiet) s = .next (s.setCore c { x with unfenced := [] })) ∧
    (s.runs c 67 w → exec (.qarr c Obs.quiet) s = .next (s.setCore c { x with firingQuoin := some (bits w 16 12) })) ∧
    (s.runs c 0x01 w → exec (.br c Obs.quiet) s = .next (s.setCore c { x with pc := bits w 11 0 })) ∧
    (s.runs c 0x02 w → exec (.dbnz c Obs.quiet) s = .next (s.setCore c (
      let d := (s.core c).rdS (bits w 21 17) - 1
      let y := x.wrS (bits w 21 17) d
      if d = 0 then y else { y with pc := bits w 11 0 })))

/-- Each scalar instruction writes one register, with the value that R169 and R170 give, and changes nothing else but the issue
index: SALU by its fn, ADDI, ANDI, ORI, XORI, SHI, MOVL and MOVH from their immediates.

PLOG, CMP and CMPI write one predicate register and change nothing else but the issue index (R169, R170).

Under these premises each of plog, salu, addi, andi, ori, xori, shi, movl, movh, cmp and cmpi answers a next state. -/
def Obligations.ScalarInstructions : Prop :=
  (∀ (s : State) (c w : Nat),
     let x := { s.core c with pc := ((s.core c).pc + 1) % 4096 }
     let d := bits w 21 17
     let a := (s.core c).rdS (bits w 16 12)
     let b := (s.core c).rdS (bits w 11 7)
     let fn := bits w 6 0
     let imm := bits w 11 0
     let n := b.toNat % 32
     (s.runs c 0x04 w → ∃ r : Word, exec (.salu c Obs.quiet) s = .next (s.setCore c (x.wrS d r)) ∧
       (fn = 0 → r = a + b) ∧ (fn = 1 → r = a - b) ∧ (fn = 2 → r = a &&& b) ∧ (fn = 3 → r = a ||| b) ∧
       (fn = 4 → r = a ^^^ b) ∧ (fn = 5 → r = a <<< n) ∧ (fn = 6 → r = a >>> n) ∧ (fn = 7 → r = a.sshiftRight n) ∧
       (fn = 8 → r.toNat = a.toNat * b.toNat % 2 ^ 32) ∧ (fn = 9 → r.toInt = a.toInt * b.toInt / 2 ^ 32) ∧
       (fn = 10 → r.toNat = a.toNat * b.toNat / 2 ^ 32) ∧ (fn = 11 → r.toInt = min a.toInt b.toInt) ∧
       (fn = 12 → r.toInt = max a.toInt b.toInt) ∧ (fn = 13 → r.toNat = min a.toNat b.toNat) ∧
       (fn = 14 → r.toNat = max a.toNat b.toNat) ∧
       (fn = 15 → r.toNat ≤ 32 ∧ a.toNat < 2 ^ (32 - r.toNat) ∧ (r.toNat < 32 → 2 ^ (31 - r.toNat) ≤ a.toNat))) ∧
     (s.runs c 0x05 w → exec (.addi c Obs.quiet) s = .next (s.setCore c (x.wrS d (a + BitVec.ofInt 32 (sext imm 12))))) ∧
     (s.runs c 0x06 w → exec (.andi c Obs.quiet) s = .next (s.setCore c (x.wrS d (a &&& BitVec.ofNat 32 imm)))) ∧
     (s.runs c 0x07 w → exec (.ori c Obs.quiet) s = .next (s.setCore c (x.wrS d (a ||| BitVec.ofNat 32 imm)))) ∧
     (s.runs c 0x08 w → exec (.xori c Obs.quiet) s = .next (s.setCore c (x.wrS d (a ^^^ BitVec.ofNat 32 imm)))) ∧
     (s.runs c 0x09 w → ∃ r : Word, exec (.shi c Obs.quiet) s = .next (s.setCore c (x.wrS d r)) ∧
       (bits w 6 5 = 0 → r = a <<< bits w 4 0) ∧ (bits w 6 5 = 1 → r = a >>> bits w 4 0) ∧
       (bits w 6 5 = 2 → r = a.sshiftRight (bits w 4 0))) ∧
     (s.runs c 0x0A w → exec (.movl c Obs.quiet) s = .next (s.setCore c (x.wrS d (BitVec.ofNat 32 (bits w 15 0))))) ∧
     (s.runs c 0x0B w → ∃ r : Word, exec (.movh c Obs.quiet) s = .next (s.setCore c (x.wrS d r)) ∧
       r.toNat / 2 ^ 16 = bits w 15 0 ∧ r.toNat % 2 ^ 16 = ((s.core c).rdS d).toNat % 2 ^ 16)) ∧
  (∀ (s : State) (c w : Nat),
     let x := { s.core c with pc := ((s.core c).pc + 1) % 4096 }
     let d := bits w 21 17
     let holds (k : Nat) (a b : Word) (r : Bool) : Prop :=
       (k = 0 → (r = true ↔ a = b)) ∧ (k = 1 → (r = true ↔ a ≠ b)) ∧ (k = 2 → (r = true ↔ a.toInt < b.toInt)) ∧
       (k = 3 → (r = true ↔ b.toInt ≤ a.toInt)) ∧ (k = 4 → (r = true ↔ a.toNat < b.toNat)) ∧
       (k = 5 → (r = true ↔ b.toNat ≤ a.toNat))
     (s.runs c 0x03 w → ∃ r : Bool, exec (.plog c Obs.quiet) s = .next (s.setCore c (x.wrP d r)) ∧
       let p := (s.core c).rdP (bits w 16 12)
       let q := (s.core c).rdP (bits w 11 7)
       let fn := bits w 6 0
       (fn = 0 → r = (p && q)) ∧ (fn = 1 → r = (p || q)) ∧ (fn = 2 → r = (p ^^ q)) ∧ (fn = 3 → r = (p && !q)) ∧
       (fn = 4 → r = p) ∧ (fn = 5 → r = !p)) ∧
     (s.runs c 0x0C w → ∃ r : Bool, exec (.cmp c Obs.quiet) s = .next (s.setCore c (x.wrP d r)) ∧
       holds (bits w 6 0) ((s.core c).rdS (bits w 16 12)) ((s.core c).rdS (bits w 11 7)) r) ∧
     (s.runs c 0x0D w → ∃ r : Bool, exec (.cmpi c Obs.quiet) s = .next (s.setCore c (x.wrP d r)) ∧
       holds (bits w 11 9) ((s.core c).rdS (bits w 16 12)) (BitVec.ofInt 32 (sext (bits w 8 0) 9)) r))

/-- CSR writes sd with the register, CSW writes the register under its access code, BEN writes one block's enable bit, and SCFG
loads a steering unit, which drops a held token when its control galley changes (R173, R183).  A CSR of CS_STATE and of a counter of ic
takes one free value (log 1, DESIGN CHOICE; log 86, DESIGN CHOICE), and one of a _HI register the latched half (R559).

What a CSW leaves in the status registers of a core: CS_FLAGS and CS_CHAN are cleared where the written bits are one, the
scratch registers, CS_RNG and the enables take the value, and CS_SLICE_MODE keeps its low six bits (R107, R113-R120).

Under these premises each of csr, csw, scfg and ben answers a next state. -/
def Obligations.CsInstructions : Prop :=
  (∀ (s : State) (c w : Nat),
     let x := { s.core c with pc := ((s.core c).pc + 1) % 4096 }
     let i := bits w 9 0
     let a := (s.core c).rdS (bits w 16 12)
     let d := bits w 21 17
     (s.runs c 0x12 w → i = 0x003 → exec (.csr c Obs.quiet) s
       = .next { s.setCore c (x.wrS d (BitVec.ofNat 32 (x.stateWord s.free))) with free := s.free + 1 }) ∧
     (s.runs c 0x12 w → icCounter i = true → ¬ (i < 0x206 ∧ i % 2 = 1) → ∃ y, exec (.csr c Obs.quiet) s
       = .next { s.setCore c y with free := s.free + 1 } ∧ (d ≠ 0 → (y.rdS d).toNat = Map.get 0 y.sc i % 2 ^ 32) ∧
         y = { x with s := y.s, sc := y.sc, latch := y.latch } ∧ ∀ r, r ≠ d → y.rdS r = x.rdS r) ∧
     (s.runs c 0x12 w → i = 0x201 ∨ i = 0x203 ∨ i = 0x205 →
       exec (.csr c Obs.quiet) s = .next (s.setCore c (x.wrS d (Map.get 0 x.latch i)))) ∧
     (s.runs c 0x12 w → icCounter i = false → i ≠ 0x003 →
       exec (.csr c Obs.quiet) s = .next (s.setCore c (x.wrS d (BitVec.ofNat 32 (x.csValue c (s.shiftOf c) i))))) ∧
     (s.runs c 0x13 w → csReserved i a = false → exec (.csw c Obs.quiet) s = .next (s.setCore c (x.writeCs i a))) ∧
     (s.runs c 0x13 w → csReserved i a = true → s.NoPending → ∃ t, exec (.csw c Obs.quiet) s = .next t ∧ (t.core c).st = .stopped) ∧
     (s.runs c 0x16 w → ∃ y, exec (.ben c Obs.quiet) s = .next (s.setCore c y) ∧ y = { x with en0 := y.en0, en1 := y.en1 } ∧
       ∀ n < 64, y.enabled n = if n = bits w 5 0 then bit w 6 else x.enabled n) ∧
     (s.runs c 0x15 w →
       let u := (s.core c).steer d
       let v := a &&& 0xFFFF1
       let idle : Steer := { u with cfg := v, run := 0, sel := 0, tok := none }
       (wordAt v 7 4 = u.ctl → exec (.scfg c Obs.quiet) s = .next (s.setCore c (x.updSteer d (fun u => { u with cfg := v })))) ∧
       (wordAt v 7 4 ≠ u.ctl → ∃ t, exec (.scfg c Obs.quiet) s = .next t ∧ (t.core c).steer d = idle ∧
         (u.tok = none → t = s.setCore c (x.updSteer d (fun _ => idle)))))) ∧
  (∀ (x : Core) (v : Word),
     x.writeCs 0x010 v = { x with flags := x.flags &&& ~~~v } ∧
     x.writeCs 0x012 v = { x with chan := x.chan &&& ~~~v } ∧
     x.writeCs 0x004 v = { x with en0 := v } ∧ x.writeCs 0x005 v = { x with en1 := v } ∧
     x.writeCs 0x018 v = { x with rng := v } ∧ x.writeCs 0x008 v = { x with sliceMode := v &&& 0x3F } ∧
     x.writeCs 0x014 v = x ∧ x.writeCs 0x015 v = x ∧
     (∀ n < 4, Map.get 0 (x.writeCs (0x01C + n) v).scratch n = v) ∧
     (∀ i, 0x3C0 ≤ i → x.writeCs i v = x))

/-! ### Core store -/

/-- A core-store word or line that is aligned, in range, outside every spill range, of clean codewords and with no write waiting for a
fence at them is loaded and stored as it stands; every other byte of the store, and the rest of the core, stays (R74,
R77, R174, R175).

A load or store whose address is at or above 0x4_0000 stops the core with STORE_RANGE, and else one whose address is not
aligned stops it with MISALIGN, with the address in CS_FAULT_INFO; nothing is loaded or stored (R104, R174).  One that is aligned and
in range and reaches into a galley's spill range stops it with SPILL_ACCESS (R174, R227; log 83, DESIGN CHOICE).

Under these premises each of ldw, stw, vld and vst answers a next state. -/
def Obligations.CoreStoreAccess : Prop :=
  (∀ (s : State) (c w : Nat),
     let x := { s.core c with pc := ((s.core c).pc + 1) % 4096 }
     let base := (s.core c).rdS (bits w 16 12)
     let d := bits w 21 17
     let good (a n : Nat) : Prop := a + n ≤ 0x40000 ∧ (s.core c).inSpill a n = false ∧
       (∀ e ∈ (s.core c).unfenced, e.cw < a / 16 ∨ a / 16 + (n + 15) / 16 ≤ e.cw) ∧
       ∀ k < (n + 15) / 16, Map.get Cw.clean (s.core c).ecc (a / 16 + k) = .clean
     let a4 := effAddr base (bits w 11 0) 4
     let a64 := effAddr base (bits w 11 0) 64
     (s.runs c 0x0E w → a4 % 4 = 0 → good a4 4 →
       exec (.ldw c Obs.quiet) s = .next (s.setCore c (x.wrS d (BitVec.ofNat 32 (ofLe ((s.core c).store.readN a4 4)))))) ∧
     (s.runs c 0x0F w → a4 % 4 = 0 → good a4 4 → ∃ y, exec (.stw c Obs.quiet) s = .next (s.setCore c y) ∧
       y = { x with store := y.store, ecc := y.ecc, unfenced := y.unfenced } ∧
       y.store.readN a4 4 = le ((s.core c).rdS d).toNat 4 ∧
       (∀ b, (b < a4 ∨ a4 + 4 ≤ b) → y.store.read b = (s.core c).store.read b) ∧
       ∀ k, Map.get Cw.clean y.ecc k = Map.get Cw.clean (s.core c).ecc k) ∧
     (s.runs c 0x10 w → a64 % 64 = 0 → good a64 64 → ∃ v : VReg, exec (.vld c Obs.quiet) s = .next (s.setCore c (x.wrV d v)) ∧
       v.poison = 0 ∧ ∀ i < 16, v.lane i = ofLe ((s.core c).store.readN (a64 + 4 * i) 4)) ∧
     (s.runs c 0x11 w → a64 % 64 = 0 → good a64 64 → ∃ y, exec (.vst c Obs.quiet) s = .next (s.setCore c y) ∧
       y = { x with store := y.store, ecc := y.ecc, unfenced := y.unfenced } ∧
       (∀ i < 16, ofLe (y.store.readN (a64 + 4 * i) 4) = ((s.core c).rdV d).lane i) ∧
       (∀ k < 4, Map.get Cw.clean y.ecc (a64 / 16 + k) =
         if (List.range 4).any (fun j => ((s.core c).rdV d).psn (4 * k + j)) then .poison else .clean) ∧
       (∀ k, (k < a64 / 16 ∨ a64 / 16 + 4 ≤ k) → Map.get Cw.clean y.ecc k = Map.get Cw.clean (s.core c).ecc k) ∧
       ∀ b, (b < a64 ∨ a64 + 64 ≤ b) → y.store.read b = (s.core c).store.read b)) ∧
  (∀ (s : State) (c w : Nat),
     let base := (s.core c).rdS (bits w 16 12)
     let stops (i : Instr) (a code : Nat) : Prop := ∃ t, exec i s = .next t ∧ (t.core c).st = .stopped ∧
       (t.core c).faultInfo = BitVec.ofNat 32 a ∧ wordAt (t.core c).fault 7 0 = code ∧
       (t.core c).s = (s.core c).s ∧ (t.core c).v = (s.core c).v ∧ (t.core c).store = (s.core c).store
     let checks (i : Instr) (a n : Nat) : Prop := s.NoPending →
       (0x40000 ≤ a → stops i a 0x02) ∧ (a < 0x40000 → a % n ≠ 0 → stops i a 0x03) ∧
       (a < 0x40000 → a % n = 0 → (s.core c).inSpill a n = true → stops i a FaultCode.spillAccess)
     (s.runs c 0x0E w → checks (.ldw c Obs.quiet) (effAddr base (bits w 11 0) 4) 4) ∧
     (s.runs c 0x0F w → checks (.stw c Obs.quiet) (effAddr base (bits w 11 0) 4) 4) ∧
     (s.runs c 0x10 w → checks (.vld c Obs.quiet) (effAddr base (bits w 11 0) 64) 64) ∧
     (s.runs c 0x11 w → checks (.vst c Obs.quiet) (effAddr base (bits w 11 0) 64) 64))

/-! ### Vector unit -/

/-- The integer forms of the vector unit: VADD, VSUB and VMUL of type INT32 wrap, VINT does its function on each lane, a lane with a
poisoned source is poisoned, and nothing but vd and the issue index changes (R101, R170, R176).

The floating forms of the vector unit: each value of vd is the exact sum, difference, product, fused sum, least or most of the
source values, rounded once by rnd and ftz with the draws of CS_RNG in value order; a lane with a poisoned source is poisoned; the
core's issue index, CS_RNG under stochastic rounding and the counters of the vector unit change with it, and of the rest of the module
only the proof recorder (R144, R145, R147, R151, R176, R177).

Under these premises each of vadd, vsub, vmul, vfma, vmin, vmax and vint answers a next state. -/
def Obligations.VectorArithmetic : Prop :=
  (∀ (s : State) (c w : Nat),
     let x := { s.core c with pc := ((s.core c).pc + 1) % 4096 }
     let a := (s.core c).rdV (bits w 16 12)
     let b := (s.core c).rdV (bits w 11 7)
     let lane (v : VReg) (k : Nat) : Word := BitVec.ofNat 32 (v.lane k)
     let goes (i : Instr) (r : Word → Word → Word → Prop) : Prop :=
       ∃ v : VReg, exec i s = .next (s.setCore c (x.wrV (bits w 21 17) v)) ∧ v.poison = a.poison ||| b.poison ∧
         ∀ k < 16, r (lane a k) (lane b k) (lane v k)
     let clip (r : Int) : Int := max (-2147483648) (min 2147483647 r)
     (s.runs c 0x18 w → bits w 6 5 = 3 → goes (.vadd c Obs.quiet) (fun p q r => r = p + q)) ∧
     (s.runs c 0x19 w → bits w 6 5 = 3 → goes (.vsub c Obs.quiet) (fun p q r => r = p - q)) ∧
     (s.runs c 0x1A w → bits w 6 5 = 3 → goes (.vmul c Obs.quiet) (fun p q r => r = p * q)) ∧
     (s.runs c 0x23 w → goes (.vint c Obs.quiet) (fun p q r =>
       let n := q.toNat % 32
       let fn := bits w 6 0
       (fn = 0 → r = p &&& q) ∧ (fn = 1 → r = p ||| q) ∧ (fn = 2 → r = p ^^^ q) ∧ (fn = 3 → r = p <<< n) ∧
       (fn = 4 → r = p >>> n) ∧ (fn = 5 → r = p.sshiftRight n) ∧ (fn = 6 → r.toInt = clip (p.toInt + q.toInt)) ∧
       (fn = 7 → r.toInt = clip (p.toInt - q.toInt)) ∧ (fn = 8 → r = p * q)))) ∧
  (∀ (s : State) (c w : Nat),
     let z := s.core c
     let t := bits w 6 5
     let wd := if t = 0 then 32 else 16
     let rnd := bits w 4 3
     let us := if rnd = 2 then (draws z.rng (256 / wd)).1 else []
     let x := { z with pc := (z.pc + 1) % 4096, rng := if rnd = 2 then (draws z.rng (256 / wd)).2 else z.rng }
     let d := bits w 21 17
     let a := z.rdV (bits w 16 12)
     let b := z.rdV (bits w 11 7)
     let val (v : VReg) (k : Nat) : Fval := decodeNum t (elemBits wd v.bits.toNat k)
     let goes (i : Instr) (psn : BitVec 16) (r : Nat → Fval) : Prop :=
       ∃ (v : VReg) (nc : Map Nat) (rec : Recorder),
         exec i s = .next { s.setCore c { x.wrV d v with nc := nc } with recorder := rec } ∧ v.poison = psn ∧
         (∀ k < 512 / wd, elemBits wd v.bits.toNat k
           = (encodeNum t (r k) { mode := rnd, ieee := true, flush := bit w 2, u := us.getD k 0 }).1) ∧
         ∀ j, (j < 0x130 ∨ 0x136 < j) → Map.get 0 nc j = Map.get 0 z.nc j
     let two (f : Fval → Fval → Fval) (k : Nat) : Fval := f (val a k) (val b k)
     (t ≠ 3 →
       (s.runs c 0x18 w → goes (.vadd c Obs.quiet) (a.poison ||| b.poison) (two (fun m n => (m.add n).1))) ∧
       (s.runs c 0x19 w → goes (.vsub c Obs.quiet) (a.poison ||| b.poison) (two (fun m n => (m.add n.negate).1))) ∧
       (s.runs c 0x1A w → goes (.vmul c Obs.quiet) (a.poison ||| b.poison) (two (fun m n => (m.mul n).1)))) ∧
     (s.runs c 0x1B w → goes (.vfma c Obs.quiet) ((z.rdV d).poison ||| a.poison ||| b.poison) (fun k =>
       let q := ((val a k).mul (val b k)).1
       ((val (z.rdV d) k).add (if bit w 1 then q.negate else q)).1)) ∧
     (s.runs c 0x1C w → goes (.vmin c Obs.quiet) (a.poison ||| b.poison) (two Fval.least)) ∧
     (s.runs c 0x1D w → goes (.vmax c Obs.quiet) (a.poison ||| b.poison) (two Fval.most)))

/-- Each of VUN, VBCAST, VEXT, VROW, VSHUF, VCMP and VSEL that a core runs answers a next state, with these results: VUN by its function, VBCAST from sa, VEXT to sd, VROW and VSHUF by lane, VCMP to a mask, VSEL by the mask in
vd.  Poison follows each lane, a broadcast is clean, and nothing but the destination and the issue index changes (R101, R176, R178,
R179).

What VCMP compares: on INT32 the signed order; on a floating type the order of the values, zeros equal, and with a NaN only NE
holds (R178). -/
def Obligations.VectorMoves : Prop :=
  (∀ (s : State) (c w : Nat),
     let x := { s.core c with pc := ((s.core c).pc + 1) % 4096 }
     let d := bits w 21 17
     let t := bits w 6 5
     let wd := if t = 1 ∨ t = 2 then 16 else 32
     let a := (s.core c).rdV (bits w 16 12)
     let b := (s.core c).rdV (bits w 11 7)
     let nb := bits w 11 7
     let goes (i : Instr) (r : VReg → Prop) : Prop := ∃ v : VReg, exec i s = .next (s.setCore c (x.wrV d v)) ∧ r v
     let el (v : VReg) (k : Nat) : Nat := elemBits wd v.bits.toNat k
     (s.runs c 0x1E w → goes (.vun c Obs.quiet) (fun v => v.poison = a.poison ∧ ∀ k < 512 / wd,
       (nb = 0 → el v k = el a k) ∧
       (nb = 1 → t ≠ 3 → el v k = el a k % 2 ^ (wd - 1)) ∧
       (nb = 2 → t ≠ 3 → el v k = el a k ^^^ 2 ^ (wd - 1)) ∧
       (nb = 1 → t = 3 → el v k = if 2 ^ 31 ≤ el a k then 2 ^ 32 - el a k else el a k) ∧
       (nb = 2 → t = 3 → el v k = (2 ^ 32 - el a k) % 2 ^ 32))) ∧
     (s.runs c 0x1F w → goes (.vbcast c Obs.quiet) (fun v => v.poison = 0 ∧ ∀ k < 512 / wd,
       el v k = ((s.core c).rdS (bits w 16 12)).toNat % 2 ^ wd)) ∧
     (s.runs c 0x20 w → a.psn nb = false →
       exec (.vext c Obs.quiet) s = .next (s.setCore c (x.wrS d (BitVec.ofNat 32 (a.lane nb))))) ∧
     (s.runs c 0x20 w → a.psn nb = true → s.NoPending → ∃ u, exec (.vext c Obs.quiet) s = .next u ∧ (u.core c).st = .stopped ∧
       wordAt (u.core c).fault 7 0 = 0x0A ∧ (u.core c).faultInfo = 0 ∧ (u.core c).s = (s.core c).s) ∧
     (s.runs c 0x21 w → goes (.vrow c Obs.quiet) (fun v => ∀ l < 16, v.lane l = a.lane (nb + l / 8) ∧ v.psn l = a.psn (nb + l / 8))) ∧
     (s.runs c 0x22 w → goes (.vshuf c Obs.quiet) (fun v => ∀ l < 16, v.lane l = a.lane (b.lane l % 16) ∧
       v.psn l = (a.psn (b.lane l % 16) || b.psn l))) ∧
     (s.runs c 0x24 w → goes (.vcmp c Obs.quiet) (fun v => v.poison = a.poison ||| b.poison ∧ ∀ k < 512 / wd,
       el v k = if vcmpFn t (bits w 4 2) (el a k) (el b k) then 2 ^ wd - 1 else 0)) ∧
     (s.runs c 0x25 w → goes (.vsel c Obs.quiet) (fun v =>
       v.poison = (s.core c |>.rdV d).poison ||| a.poison ||| b.poison ∧ ∀ k < 512,
         v.bits.getLsbD k = if ((s.core c).rdV d).bits.getLsbD k then a.bits.getLsbD k else b.bits.getLsbD k))) ∧
  ((∀ a b : Word,
     (vcmpFn 3 0 a.toNat b.toNat = true ↔ a = b) ∧ (vcmpFn 3 1 a.toNat b.toNat = true ↔ a ≠ b) ∧
     (vcmpFn 3 2 a.toNat b.toNat = true ↔ a.toInt < b.toInt) ∧ (vcmpFn 3 3 a.toNat b.toNat = true ↔ a.toInt ≤ b.toInt)) ∧
   ∀ t < 3, ∀ a b : Nat,
     ((decodeNum t a).cls = 3 ∨ (decodeNum t b).cls = 3 → ∀ k < 4, vcmpFn t k a b = decide (k = 1)) ∧
     ((decodeNum t a).cls ≠ 3 → (decodeNum t b).cls ≠ 3 →
       (vcmpFn t 1 a b = !vcmpFn t 0 a b) ∧ (vcmpFn t 3 a b = (vcmpFn t 0 a b || vcmpFn t 2 a b)) ∧
       (vcmpFn t 0 a b = vcmpFn t 0 b a) ∧ (vcmpFn t 2 a b = true → vcmpFn t 2 b a = false ∧ vcmpFn t 0 a b = false) ∧
       vcmpFn t 0 a a = true))

/-- Each of VSUM, VCVT and VTR that a core runs answers a next state, with these results: each value of a VSUM is the exact sum over the group of registers, rounded once; each element of a VCVT is the
source element rounded to the target, and the snapshot of the vector unit's counters is taken after it; VTR replaces each lane by the
function of its value, a NaN by the canonical NaN.  Only the destination, CS_RNG under stochastic rounding, the numeric counters, the
issue index and the proof recorder change (R148-R150, R153, R180-R182). -/
def Obligations.VectorRounding : Prop :=
  ∀ (s : State) (c w : Nat),
    let z := s.core c
    let d := bits w 21 17
    let na := bits w 16 12
    let nb := bits w 11 7
    let next (i : Instr) (rnd n : Nat) (r : Core → Prop) : Prop :=
      ∃ (y : Core) (rec : Recorder), exec i s = .next { s.setCore c y with recorder := rec } ∧ r y ∧
        y = { z with pc := (z.pc + 1) % 4096, v := y.v, nc := y.nc, rng := if rnd = 2 then (draws z.rng n).2 else z.rng }
    (s.runs c 0x26 w →
      let t := bits w 6 5
      let wd := if t = 0 then 32 else 16
      let us := if bits w 4 3 = 2 then (draws z.rng (256 / wd)).1 else []
      next (.vsum c Obs.quiet) (bits w 4 3) (256 / wd) (fun y =>
        (∀ r, r ≠ d → y.rdV r = z.rdV r) ∧ ∀ k < 512 / wd,
          elemBits wd (y.rdV d).bits.toNat k = (encodeNum t
            (windowSum ((List.range (nb + 1)).map (fun j => decodeNum t (elemBits wd (z.rdV (na + j)).bits.toNat k)))).1.value
            { mode := bits w 4 3, ieee := true, flush := bit w 2, u := us.getD k 0 }).1)) ∧
    (s.runs c 0x27 w →
      let src := bits w 11 8
      let dst := bits w 7 4
      let us := if bits w 3 2 = 2 then (draws z.rng 16).1 else []
      let regs (r k : Nat) : Nat := (z.rdV (r + k)).bits.toNat
      next (.vcvt c Obs.quiet) (bits w 3 2) 16 (fun y =>
        (∀ r, r ≠ d → (r ≠ d + 1 ∨ fmtBits dst ≠ 32) → y.rdV r = z.rdV r) ∧
        (∀ k < 7, Map.get 0 y.nc (0x170 + k) = Map.get 0 y.nc (0x130 + k)) ∧ ∀ e < 32,
          let sw := fmtBits src
          let dw := fmtBits dst
          elemBits dw (y.rdV (d + e * dw / 512)).bits.toNat (e % (512 / dw)) = (encodeNum dst
            (decodeNum src (elemBits sw (regs na (e * sw / 512)) (e % (512 / sw))))
            { mode := bits w 3 2, ieee := bit w 1, flush := bit w 0, u := us.getD e 0 }).1)) ∧
    (s.runs c 0x28 w → next (.vtr c Obs.quiet) 0 0 (fun y =>
      (∀ r, r ≠ d → y.rdV r = z.rdV r) ∧ (y.rdV d).poison = (z.rdV na).poison ∧ ∀ l < 16,
        let x := decodeNum 0 ((z.rdV na).lane l)
        let r := (y.rdV d).lane l
        (x.cls = 3 → r = 0x7FC00000) ∧
        (nb = 0 → x.cls = 2 → r = if x.neg then 0 else 0x7F800000) ∧ (nb = 1 → x.cls = 1 → r = 0xFF800000) ∧
        (nb = 1 → x.cls ≠ 1 → x.neg = true → r = 0x7FC00000) ∧
        (nb = 2 ∨ nb = 3 → x.cls = 1 → r = if x.neg then 0xFF800000 else 0x7F800000) ∧
        (nb = 3 → x.cls ≠ 1 → x.neg = true → r = 0x7FC00000) ∧
        (nb = 2 → x.cls = 2 → r = if x.neg then 0x80000000 else 0)))

/-! ### Product engine -/

/-- A PROD of two operands in vector registers, without block scales: every element (i, j) of the bank takes, plan term by plan term and
then step by step over the depth, the exact product term of row i of the left and column j of the right operand; the clear or preset of
the pair comes first, a poisoned input marks the element, and no element of another bank changes.  PCLR clears the bank and no other
(R130, R135, R137-R142, R154, R184-R186, R190).  No comparison of rres with A fails where none would at the start, and none would at the
end (R156).

Under these premises each of prod and pclr answers a next state. -/
def Obligations.ProductEngine : Prop :=
  ∀ (s : State) (c w : Nat),
    let z := s.core c
    let x := { z with pc := (z.pc + 1) % 4096 }
    let sl := bits w 21 20
    let bk := bits w 19 18
    let dp := bits w 17 13
    let base := sl * 128 + bk * 32
    let others (y : Core) : Prop := ∀ n, (n < base ∨ base + 32 ≤ n) → Map.get Acc.init y.acc n = Map.get Acc.init z.acc n
    let d0 := (z.rdS dp).toNat
    let d1 := (z.rdS (dp + 1)).toNat
    let depth := if bits d0 18 13 = 0 then 64 else bits d0 18 13
    let plan := bits d0 12 10
    let fa := bits d0 3 0
    let fb := bits d0 7 4
    let na := (4 * depth * fmtStream fa + 511) / 512
    let nb := (8 * depth * fmtStream fb + 511) / 512
    let left (i k : Nat) : Opnd := mkOpnd plan fa (streamElem (z.vregs (bits w 12 8) na) (fmtStream fa) (i * depth + k)) none
    let right (j k : Nat) : Opnd := mkOpnd plan fb (streamElem (z.vregs (bits w 7 3) nb) (fmtStream fb) (k * 8 + j)) none
    let clear (e : Nat) : Acc := if bits d0 24 23 = 0 then z.rdAcc sl bk e
      else if bits d0 24 23 = 1 then Acc.init else { Acc.init with w := sext (bits d1 28 17) 12, set := true }
    (s.runs c 0x2A w → prodLegal w d0 d1 (wordAt z.sliceMode (2 * sl + 1) (2 * sl)) = true →
      bits d0 20 19 = 0 → bits d0 22 21 = 0 → bit d0 8 = false → bit d0 9 = false →
      bits w 12 8 + na ≤ 32 → bits w 7 3 + nb ≤ 32 → (bits d0 24 23 = 0 → ∀ e < 32, (z.rdAcc sl bk e).residueOk = true) →
      ∃ (y : Core) (rec : Recorder), exec (.prod c Obs.quiet) s = .next { s.setCore c y with recorder := rec } ∧
        y = { x with acc := y.acc, nc := y.nc, banks := y.banks } ∧ others y ∧ sl * 4 + bk ∈ y.banks ∧
        (∀ e < 32, (y.rdAcc sl bk e).residueOk = true) ∧ ∀ i < 4, ∀ j < 8, y.rdAcc sl bk (8 * i + j) =
          (planTerms plan (fmtPieces fa) (fmtPieces fb)).foldl (fun m t => (List.range depth).foldl (fun (m : Acc) k =>
            { (m.addNum ((left i k).term (right j k) t).1).1 with poison := m.poison || (left i k).psn || (right j k).psn }) m)
            (clear (8 * i + j))) ∧
    (s.runs c 0x2B w → (dp = 0 ∨ bits d0 31 12 = 0) →
      ∃ y : Core, exec (.pclr c Obs.quiet) s = .next (s.setCore c y) ∧ y = { x with acc := y.acc, banks := y.banks } ∧ others y ∧
        sl * 4 + bk ∈ y.banks ∧ ∀ e < 32, y.rdAcc sl bk e =
          if dp = 0 then Acc.init else { Acc.init with w := sext (bits d0 11 0) 12, set := true }) ∧
    (s.runs c 0x2B w → dp ≠ 0 → bits d0 31 12 ≠ 0 → s.NoPending →
      ∃ t, exec (.pclr c Obs.quiet) s = .next t ∧ (t.core c).st = .stopped ∧ (t.core c).acc = z.acc)

/-- DRAIN writes the 32 elements of a bank rounded to the target format, clears the bank when clr is 1 and keeps it when clr is 0, and
takes the snapshot of the slice's counters; LSTAT writes the sums, the sums of squares, the largest magnitudes and the counts of
non-finite elements of the rows, and LDOT the dot products with the tile, and both keep the bank (R143, R146, R153, R191, R192).  The
elements' residues agree when they are read (R156).

Under these premises each of drain, lstat and ldot answers a next state. -/
def Obligations.BankReads : Prop :=
  ∀ (s : State) (c w : Nat),
    let z := s.core c
    let sl := bits w 21 20
    let bk := bits w 19 18
    let vd := bits w 17 13
    let acc (e : Nat) : Acc := z.rdAcc sl bk e
    (∀ e < 32, (acc e).residueOk = true) →
    (s.runs c 0x2C w → ∃ (y : Core) (rec : Recorder), exec (.drain c Obs.quiet) s = .next { s.setCore c y with recorder := rec } ∧
      let f := bits w 12 9
      let dw := fmtBits f
      let rnd := bits w 8 7
      let us := if rnd = 2 then (draws z.rng 16).1 else []
      y = { z with pc := (z.pc + 1) % 4096, v := y.v, nc := y.nc, acc := y.acc, banks := y.banks,
                   rng := if rnd = 2 then (draws z.rng 16).2 else z.rng } ∧
      (∀ r, r ≠ vd → (r ≠ vd + 1 ∨ dw ≠ 32) → y.rdV r = z.rdV r) ∧
      (∀ e < 32, elemBits dw (y.rdV (vd + e * dw / 512)).bits.toNat (e % (512 / dw))
        = (encodeNum f (acc e).value { mode := rnd, ieee := bit w 6, flush := bit w 5, u := us.getD e 0 }).1) ∧
      (∀ k < 7, Map.get 0 y.nc (0x140 + 0x10 * sl + k) = Map.get 0 y.nc (0x100 + 0x10 * sl + k)) ∧
      (bit w 4 = false → y.acc = z.acc) ∧
      (bit w 4 = true → ∀ n, Map.get Acc.init y.acc n =
        if sl * 128 + bk * 32 ≤ n ∧ n < sl * 128 + bk * 32 + 32 then Acc.init else Map.get Acc.init z.acc n)) ∧
    (let v (i j : Nat) : Fval := decodeNum 0 (encodeNum 0 (acc (8 * i + j)).value { Rnd.rne with ieee := false }).1
     let bad (i : Nat) : Bool := (List.range 8).any (fun j => (acc (8 * i + j)).cls != 0)
     let psn (i : Nat) : Bool := (List.range 8).any (fun j => (acc (8 * i + j)).poison)
     let sum (l : List Fval) : Nat := (encodeNum 0 (windowSum l).1.value Rnd.rne).1
     let mag (i j : Nat) : Nat := (encodeNum 0 (acc (8 * i + j)).value { Rnd.rne with ieee := false }).1 % 2 ^ 31
     let goes (i : Instr) (r : VReg → Prop) : Prop := ∃ (y : VReg) (nc : Map Nat) (rec : Recorder),
       exec i s = .next { s.setCore c { ({ z with pc := (z.pc + 1) % 4096 } : Core).wrV vd y with nc := nc } with recorder := rec } ∧ r y
     (s.runs c 0x2D w → goes (.lstat c Obs.quiet) (fun y => ∀ i < 4,
       (bad i = true → y.lane i = 0x7FC00000 ∧ y.lane (4 + i) = 0x7FC00000 ∧ y.lane (8 + i) = 0x7FC00000) ∧
       (bad i = false → y.lane i = sum ((List.range 8).map (v i)) ∧
         y.lane (4 + i) = sum ((List.range 8).map (fun j => ((v i j).mul (v i j)).1)) ∧
         (∀ j < 8, mag i j ≤ y.lane (8 + i)) ∧ ∃ j < 8, y.lane (8 + i) = mag i j) ∧
       y.lane (12 + i) = ((List.range 8).filter (fun j => (acc (8 * i + j)).cls != 0)).length ∧
       ∀ q < 4, y.psn (4 * q + i) = psn i)) ∧
     (s.runs c 0x2E w → goes (.ldot c Obs.quiet) (fun y => ∀ i < 4,
       let tile (e : Nat) : Nat := (z.rdV (bits w 12 8 + e / 16)).lane (e % 16)
       y.lane i = (if bad i then 0x7FC00000
         else sum ((List.range 8).map (fun j => ((v i j).mul (decodeNum 0 (tile (8 * i + j)))).1))) ∧
       (∀ q, 1 ≤ q → q < 4 → y.lane (4 * q + i) = 0) ∧
       ∀ q < 4, y.psn (4 * q + i) = (psn i || (List.range 8).any (fun j =>
         (z.rdV (bits w 12 8 + (8 * i + j) / 16)).psn ((8 * i + j) % 16))))))

/-- A half of the transposing buffer goes from EMPTY to FILLING at a TCLAIM, to FULL when every claimed row has been written by TWRV or
TWRM, and back to EMPTY at a TREL of its owner, at once when the block has no REPLAY; an instruction that finds another state stops the
core with TBUF (R80-R82, R193).

Under these premises each of tclaim, twrv, twrm and trel answers a next state. -/
def Obligations.TransposingBuffer : Prop :=
  ∀ (s : State) (c w : Nat),
    let z := s.core c
    let x := { z with pc := (z.pc + 1) % 4096 }
    let h := bits w 21 21
    let q := z.half h
    let tbuf (i : Instr) : Prop := s.NoPending → ∃ t, exec i s = .next t ∧ (t.core c).st = .stopped ∧ wordAt (t.core c).fault 7 0 = 0x0E ∧
      (t.core c).faultInfo = BitVec.ofNat 32 h ∧ (t.core c).half h = q
    let puts (i : Instr) (row : Nat) (v : VReg) : Prop := ∃ y : Half, exec i s = .next (s.setCore c (x.setHalf h y)) ∧
      (∀ r, Map.get VReg.init y.data r = if r = row then v else Map.get VReg.init q.data r) ∧
      (∀ r, y.ctl.written.testBit r = (decide (r = row) || q.ctl.written.testBit r)) ∧
      y.ctl = { q.ctl with state := y.ctl.state, written := y.ctl.written } ∧
      (y.ctl.state = 2 ∧ (∀ r < q.ctl.rows, y.ctl.written.testBit r = true) ∨
        y.ctl.state = 1 ∧ ∃ r < q.ctl.rows, y.ctl.written.testBit r = false)
    (s.runs c 0x30 w → q.ctl.state = 0 → exec (.tclaim c Obs.quiet) s = .next (s.setCore c (x.setHalf h
      { ctl := { state := 1, owner := bits w 20 19, width := bits w 18 17, rows := bits w 16 12 + 1, written := 0 }, data := [] }))) ∧
    (s.runs c 0x30 w → q.ctl.state ≠ 0 → tbuf (.tclaim c Obs.quiet)) ∧
    (s.runs c 0x31 w → q.ctl.state = 1 → puts (.twrv c Obs.quiet) (bits w 20 16) (z.rdV (bits w 15 11))) ∧
    (s.runs c 0x31 w → q.ctl.state ≠ 1 → tbuf (.twrv c Obs.quiet)) ∧
    (let a := ((z.rdS (bits w 15 11)).toNat + 64 * bits w 10 0) % 2 ^ 32
     s.runs c 0x32 w → a % 64 = 0 → a + 64 ≤ 0x40000 → z.inSpill a 64 = false →
     (∀ e ∈ z.unfenced, e.cw < a / 16 ∨ a / 16 + 4 ≤ e.cw) →
     (∀ k < 4, Map.get Cw.clean z.ecc (a / 16 + k) = .clean) →
     (q.ctl.state = 1 → ∃ v : VReg, puts (.twrm c Obs.quiet) (bits w 20 16) v ∧ v.poison = 0 ∧
       ∀ i < 16, v.lane i = ofLe (z.store.readN (a + 4 * i) 4)) ∧
     (q.ctl.state ≠ 1 → tbuf (.twrm c Obs.quiet))) ∧
    (s.runs c 0x33 w → q.ctl.state ≠ 0 → q.ctl.owner = bits w 20 19 →
      exec (.trel c Obs.quiet) s = .next (s.setCore c (
        if z.running.replay then { x with releasing := z.releasing ++ [h] } else x.setHalf h Half.init))) ∧
    (s.runs c 0x33 w → (q.ctl.state = 0 ∨ q.ctl.owner ≠ bits w 20 19) → tbuf (.trel c Obs.quiet))

/-! ### Channels -/

/-- CHOPEN of an IDLE or CLOSED port makes it PENDING and sends one CONNECT on virtual channel 1 from the core's own router, or, when
the core itself refuses the open, leaves it IDLE with REF set; on an OPEN or PENDING port it does nothing.  CHLISTEN makes a galley
listen with a key, CHCLOSE of a port takes effect at commit, and CHCLOSE of a galley stops it listening and sends one CLOSE to each
channel.  A register with a nonzero reserved field stops the core with ILLEGAL (R194, R195, R201, R204, R229).

Under these premises each of chopen, chlisten and chclose answers a next state. -/
def Obligations.ChannelControl : Prop :=
  ∀ (s : State) (c w : Nat),
    let z := s.core c
    let x := { z with pc := (z.pc + 1) % 4096 }
    let n := bits w 21 18
    let a := (z.rdS (bits w 17 13)).toNat
    let b := (z.rdS (bits w 12 8)).toNat
    let asked : Port := { z.port n with state := 1, credit := 0, lenient := bit b 23, size := bits b 22 20, galley := bits b 19 16,
                                        target := bits a 17 0 }
    (s.runs c 0x38 w → bits a 31 18 = 0 → bits b 31 24 = 0 → ((z.port n).state = 0 ∨ (z.port n).state = 3) →
      z.refusesOpen asked = false → ∃ m : Msg,
        exec (.chopen c Obs.quiet) s = .next ((s.setCore c (x.updPort n (fun _ => asked))).arrive c 4 m) ∧
        m.typ = 3 ∧ m.vc = 1 ∧ m.forme = z.forme ∧ m.sx = coreX c ∧ m.sy = coreY c ∧ m.sport = n ∧ m.dkind = asked.dkind ∧
        m.dest = asked.dest ∧ ∀ sl ∈ m.slots, sl.poisoned = false) ∧
    (s.runs c 0x38 w → bits a 31 18 = 0 → bits b 31 24 = 0 → ((z.port n).state = 0 ∨ (z.port n).state = 3) →
      z.refusesOpen asked = true → ∃ y : Core, exec (.chopen c Obs.quiet) s = .next (s.setCore c y) ∧
        y = { x with ports := y.ports, chan := y.chan, chanCnt := y.chanCnt } ∧
        y.port n = { asked with state := 0, reason := 0 } ∧ (∀ k, k ≠ n → y.port k = z.port k) ∧
        y.chan = z.chan ||| BitVec.ofNat 32 (2 ^ (16 + n)) ∧ y.chanCnt.toNat = min (z.chanCnt.toNat + 1) 0xFFFFFFFF) ∧
    (s.runs c 0x38 w → bits a 31 18 = 0 → bits b 31 24 = 0 → ((z.port n).state = 1 ∨ (z.port n).state = 2) →
      exec (.chopen c Obs.quiet) s = .next (s.setCore c x)) ∧
    (s.runs c 0x39 w → wordAt (z.rdS (bits w 12 8)) 31 16 = 0 → exec (.chlisten c Obs.quiet) s = .next (s.setCore c
      (x.updGalley n (fun g => { g with lst := 0x80000000 ||| z.rdS (bits w 12 8) })))) ∧
    (s.runs c 0x3A w → bits w 7 7 = 0 → exec (.chclose c Obs.quiet) s = .next (s.setCore c { x with closing := z.closing ++ [n] })) ∧
    (s.runs c 0x3A w → bits w 7 7 = 1 → ∃ y : Core,
      exec (.chclose c Obs.quiet) s = .next ((s.setCore c y).forAll ((z.galley n).chans.map (fun ch =>
        closeMsgTo z.forme c ch.src ch.port true)) (fun t m => t.arrive c 4 m)) ∧
      y = { x with galleys := y.galleys } ∧ (∀ k, k ≠ n → y.galley k = z.galley k) ∧ (y.galley n).chans = [] ∧
      (y.galley n).listening = false ∧ (y.galley n).items = (z.galley n).items) ∧
    (let stops (i : Instr) : Prop := s.NoPending → ∃ t, exec i s = .next t ∧ (t.core c).st = .stopped ∧ wordAt (t.core c).fault 7 0 = 1 ∧
       (t.core c).faultInfo = BitVec.ofNat 32 w
     (s.runs c 0x38 w → (bits a 31 18 ≠ 0 ∨ bits b 31 24 ≠ 0) → stops (.chopen c Obs.quiet)) ∧
     (s.runs c 0x39 w → wordAt (z.rdS (bits w 12 8)) 31 16 ≠ 0 → stops (.chlisten c Obs.quiet)))

/-- A send on an OPEN port stages its message and writes 0 to the status register, with the slots from vector registers or from core store;
on a port to a unit that is no core, slot 0 goes in the header, and a poisoned slot 0 stops the core with POISON_CONSUMED.  On a port that is not OPEN the message is discarded and counted, CLS is set, and the status is 0 on a CLOSED port of
a lenient channel and else 0x10 (R73, R102, R196, R197, R324).

A send on a port that the block does not name stops the core with PORT_UNNAMED, a second send of a block on one port with
DOUBLE_SEND, and one longer than the port's message size with MSG_SIZE, each with the port in CS_FAULT_INFO (R104, R196).

Under these premises each of sendv and sendm answers a next state. -/
def Obligations.Sends : Prop :=
  (∀ (s : State) (c w : Nat),
     let z := s.core c
     let x := { z with pc := (z.pc + 1) % 4096 }
     let n := bits w 21 18
     let src := bits w 17 13
     let len := bits w 12 10 + 1
     let p := z.port n
     let ready : Prop := z.running.sends.testBit n = true ∧ p.sent = false ∧
       len ≤ (if p.kind = 3 ∧ p.control = true then p.size + 2 else p.size + 1)
     let goes (i : Instr) (status : Word) (q : Port) (r : Core → Prop) : Prop :=
       ∃ y : Core, exec i s = .next (s.setCore c y) ∧
         y = { x with ports := y.ports, chan := y.chan, chanCnt := y.chanCnt, s := (z.wrS (bits w 4 0) status).s } ∧
         y.port n = q ∧ (∀ k, k ≠ n → y.port k = z.port k) ∧ r y
     let sends (i : Instr) (slots : List Slot) : Prop := ∃ m : Msg,
       goes i 0 { p with sent := true, staged := some m } (fun y => y.chan = z.chan ∧ y.chanCnt = z.chanCnt) ∧
       m.typ = 1 ∧ m.forme = z.forme ∧ m.dest = p.target ∧ m.sx = coreX c ∧ m.sy = coreY c ∧ m.sport = n ∧ m.galley = p.galley ∧
       m.cls = wordAt p.cfg 2 1 ∧ m.tag = (z.rdS (bits w 9 5)).toNat % 65536 ∧ m.slots = slots
     let asks (i : Instr) (slots : List Slot) : Prop :=
       ∀ sl rest, slots = sl :: rest → sl.lo ≠ .poison → sl.data.toNat < 2 ^ 128 →
       replyLen p.kind (sl.data.toNat % 2 ^ 128) ≤ p.size + 1 → ∃ m : Msg,
       goes i 0 { p with sent := true, staged := some m } (fun y => y.chan = z.chan ∧ y.chanCnt = z.chanCnt) ∧
       m.typ = (if p.kind = 1 then 8 else if p.kind = 2 then 10 else 12) ∧ m.forme = z.forme ∧ m.dkind = p.dkind ∧ m.dest = p.dest ∧
       m.sx = coreX c ∧ m.sy = coreY c ∧ m.sport = n ∧ m.galley = p.galley ∧ m.cls = wordAt p.cfg 2 1 ∧
       m.tag = (z.rdS (bits w 9 5)).toNat % 65536 ∧ m.len = rest.length ∧ m.opw.toNat = sl.data.toNat ∧ m.slots = rest
     let drops (i : Instr) : Prop :=
       goes i (if p.state = 3 ∧ p.lenient = true then 0 else 0x10) { p with sent := true, disc := min (p.disc + 1) 0xFFFF }
         (fun y => y.chan = z.chan ||| BitVec.ofNat 32 (2 ^ n))
     let a := (z.rdS src).toNat
     let good : Prop := a % 32 = 0 ∧ a + 32 * len ≤ 0x40000 ∧ z.inSpill a (32 * len) = false ∧
       (∀ e ∈ z.unfenced, e.cw < a / 16 ∨ a / 16 + 2 * len ≤ e.cw) ∧ ∀ k < 2 * len, Map.get Cw.clean z.ecc (a / 16 + k) = .clean
     let fromV : List Slot := (List.range len).map (fun i => (z.rdV (src + i / 2)).slot (i % 2))
     let fromM : List Slot := (List.range len).map (fun i =>
       { data := BitVec.ofNat 256 (ofLe (z.store.readN (a + 32 * i) 32)), lo := .clean, hi := .clean })
     (s.runs c 0x3B w → ready → p.state = 2 → p.kind = 0 → sends (.sendv c Obs.quiet) fromV) ∧
     (s.runs c 0x3C w → ready → p.state = 2 → p.kind = 0 → good → sends (.sendm c Obs.quiet) fromM) ∧
     (s.runs c 0x3B w → ready → p.state = 2 → p.kind ≠ 0 → asks (.sendv c Obs.quiet) fromV) ∧
     (s.runs c 0x3C w → ready → p.state = 2 → p.kind ≠ 0 → good → asks (.sendm c Obs.quiet) fromM) ∧
     (s.runs c 0x3B w → ready → p.state = 2 → p.kind ≠ 0 → s.NoPending →
       (z.rdV src).psn 0 = true ∨ (z.rdV src).psn 1 = true ∨ (z.rdV src).psn 2 = true ∨ (z.rdV src).psn 3 = true →
       ∃ t, exec (.sendv c Obs.quiet) s = .next t ∧ (t.core c).st = .stopped ∧ wordAt (t.core c).fault 7 0 = 0x0A ∧
         (t.core c).faultInfo = 3) ∧
     (s.runs c 0x3B w → ready → p.state ≠ 2 → drops (.sendv c Obs.quiet)) ∧
     (s.runs c 0x3C w → ready → p.state ≠ 2 → good → drops (.sendm c Obs.quiet))) ∧
  (∀ (s : State) (c w : Nat),
     let z := s.core c
     let n := bits w 21 18
     let p := z.port n
     let stops (code : Nat) (i : Instr) : Prop := s.NoPending → ∃ t, exec i s = .next t ∧ (t.core c).st = .stopped ∧
       wordAt (t.core c).fault 7 0 = code ∧ (t.core c).faultInfo = BitVec.ofNat 32 n ∧ (t.core c).s = z.s
     let each (i : Instr) : Prop :=
       (z.running.sends.testBit n = false → stops 0x05 i) ∧
       (z.running.sends.testBit n = true → (z.port n).sent = true → stops 0x08 i) ∧
       (z.running.sends.testBit n = true → p.sent = false →
         (if p.kind = 3 ∧ p.control = true then p.size + 2 else p.size + 1) < bits w 12 10 + 1 → stops 0x07 i)
     (s.runs c 0x3B w → each (.sendv c Obs.quiet)) ∧ (s.runs c 0x3C w → each (.sendm c Obs.quiet)))

/-- The reads of a galley head: GRDV takes 64 bytes, GRDS a word and GCOPY the whole item, from sound codewords; bytes past the item
read as zero, and the item stays in the galley.  A galley that the block does not name stops the core with GALLEY_UNNAMED, and a GRDS
of a poisoned word with POISON_CONSUMED (R102, R198).

Under these premises each of grdv, grds and gcopy answers a next state. -/
def Obligations.GalleyReads : Prop :=
  ∀ (s : State) (c w : Nat) (i : Item),
    let z := s.core c
    let x := { z with pc := (z.pc + 1) % 4096 }
    let g := bits w 16 13
    let word (k : Nat) : Nat := elemBits 32 (i.msg.slots.getD (k / 8) zeroSlot).data.toNat (k % 8)
    let sound : Prop := ∀ sl ∈ i.msg.slots, sl.lo = .clean ∧ sl.hi = .clean
    let sel := bits w 12 7
    (s.runs c 0x3D w → z.head g = some i → sound → ∃ v : VReg,
      exec (.grdv c Obs.quiet) s = .next (s.setCore c (x.wrV (bits w 21 17) v)) ∧ v.poison = 0 ∧
        ∀ l < 16, v.lane l = word (16 * sel + l)) ∧
    (s.runs c 0x3E w → z.head g = some i → sound →
      exec (.grds c Obs.quiet) s = .next (s.setCore c (x.wrS (bits w 21 17) (BitVec.ofNat 32 (word sel))))) ∧
    (let a := (z.rdS (bits w 17 13)).toNat
     let n := i.msg.slots.length
     s.runs c 0x3F w → z.head (bits w 21 18) = some i → sound → a < 0x40000 → a % 32 = 0 → a + 32 * n ≤ 0x40000 →
     z.inSpill a (32 * n) = false → (∀ e ∈ z.unfenced, e.cw < a / 16 ∨ a / 16 + 2 * n ≤ e.cw) → ∃ y : Core,
      exec (.gcopy c Obs.quiet) s = .next (s.setCore c y) ∧ y = { x with store := y.store, ecc := y.ecc, unfenced := y.unfenced } ∧
      (∀ k < 8 * n, ofLe (y.store.readN (a + 4 * k) 4) = word k) ∧
      (∀ q, Map.get Cw.clean y.ecc q = if a / 16 ≤ q ∧ q < a / 16 + 2 * n then .clean else Map.get Cw.clean z.ecc q) ∧
      ∀ q, (q < a ∨ a + 32 * n ≤ q) → y.store.read q = z.store.read q) ∧
    (s.runs c 0x3E w → z.head g = some i → s.NoPending → (∀ sl, i.msg.slots[sel / 8]? = some sl → (if sel % 8 < 4 then sl.lo else sl.hi) = .poison) →
      sel / 8 < i.msg.slots.length → ∃ t, exec (.grds c Obs.quiet) s = .next t ∧ (t.core c).st = .stopped ∧
        wordAt (t.core c).fault 7 0 = 0x0A ∧ (t.core c).faultInfo = 0 ∧ (t.core c).s = z.s) ∧
    (let stops (i : Instr) (h : Nat) : Prop := z.head h = none → s.NoPending → ∃ t, exec i s = .next t ∧ (t.core c).st = .stopped ∧
       wordAt (t.core c).fault 7 0 = 0x06 ∧ (t.core c).faultInfo = BitVec.ofNat 32 h ∧ (t.core c).store = z.store
     (s.runs c 0x3D w → stops (.grdv c Obs.quiet) g) ∧ (s.runs c 0x3E w → stops (.grds c Obs.quiet) g) ∧
     (s.runs c 0x3F w → stops (.gcopy c Obs.quiet) (bits w 21 18)))

/-! ### Blocks and steering units -/

/-- A block is ready when it is enabled, every galley of its inputs holds a complete item, and every port of its sends is CLOSED, or
OPEN with credit for a message; the block that fires is ready, of the highest priority among the ready ones, and among those the first
after the block of that priority that fired last, wrapping from 63 to 0; and some block fires whenever one is ready (R57-R59).  The head
of a galley is the first item of its highest class that has one.

A readiness evaluation that finds a ready block fires it: the heads of its inputs are fixed, each OPEN port of its sends gives up
credit of its message size, the snapshot is taken when REPLAY is set, and issue starts at the block's first instruction; one that finds
none counts, and the second in a row gates the clock (R59, R60, R66, R97).

Under these premises readinessEvaluation answers a next state. -/
def Obligations.Firing : Prop :=
  ((∀ (x : Core) (n : Nat), x.blockReady n = true ↔
     x.enabled n = true ∧ (∀ g < 16, (x.blockAt n).inputs.testBit g = true → (x.galley g).items ≠ []) ∧
     ∀ p < 16, (x.blockAt n).sends.testBit p = true →
       (x.port p).state = 3 ∨ ((x.port p).state = 2 ∧ (x.port p).size + 1 ≤ (x.port p).credit)) ∧
   (∀ (g : Galley) (i : Item), g.front = some i → i ∈ g.items ∧ g.items.find? (fun j => j.msg.cls == i.msg.cls) = some i ∧
     ∀ j ∈ g.items, j.msg.cls ≤ 3 → j.msg.cls ≤ i.msg.cls) ∧
   ∀ x : Core, (∀ n < 64, (x.blockAt n).prio < 4) →
     (x.chooseReady = none ↔ ∀ n < 64, x.blockReady n = false) ∧
     ∀ n, x.chooseReady = some n → n < 64 ∧ x.blockReady n = true ∧ ∀ m < 64, x.blockReady m = true →
       let last := Map.get 0 x.nextBlock (x.blockAt n).prio % 64
       (x.blockAt m).prio < (x.blockAt n).prio ∨
         ((x.blockAt m).prio = (x.blockAt n).prio ∧ (n + 64 - last) % 64 ≤ (m + 64 - last) % 64)) ∧
  (∀ (s : State) (c : Nat), s.evaluates c = true →
     let z := s.core c
     (∀ n, z.chooseReady = some n → ∃ y : Core, exec (.readinessEvaluation c Obs.quiet) s = .next (s.setCore c y) ∧
       let b := z.blockAt n
       y.st = .run ∧ y.block = n ∧ y.pc = b.start ∧ y.ended = false ∧
       (∀ g < 16, y.head g = if b.inputs.testBit g then (z.galley g).front else none) ∧
       (∀ p, y.port p = if p < 16 ∧ b.sends.testBit p = true then
           (let q := { z.port p with staged := none, sent := false, lost := false }
            if (z.port p).state = 2 then { q with credit := q.credit - (q.size + 1), reserved := q.size + 1 } else { q with reserved := 0 })
         else z.port p) ∧
       y.snap = (if b.replay then some { s := z.s, p := z.p, v := z.v, acc := z.acc, rng := z.rng, h0 := z.h0.ctl, h1 := z.h1.ctl }
         else none) ∧
       (∀ q, Map.get 0 y.nextBlock q = if q = b.prio then (n + 1) % 64 else Map.get 0 z.nextBlock q) ∧
       y = { y with s := z.s, p := z.p, v := z.v, acc := z.acc, store := z.store, ecc := z.ecc, galleys := z.galleys, en0 := z.en0,
                    en1 := z.en1, istore := z.istore, blocks := z.blocks, h0 := z.h0, h1 := z.h1, nc := z.nc, rng := z.rng,
                    steers := z.steers, scratch := z.scratch, fault := z.fault, faultInfo := z.faultInfo }) ∧
     (z.chooseReady = none → exec (.readinessEvaluation c Obs.quiet) s
       = .next (s.setCore c { z with fails := z.fails + 1, gated := decide (1 ≤ z.fails) })))

/-- A commit of a block that closes nothing and arrives at no quoin, with plain items at its heads and the banks it wrote of sound residues:
the staged messages enter the
fabric from the core's own router, each OPEN port keeps what its message spends of the reserved credit and gets the rest back, each
fixed head leaves its galley, and the core sleeps; registers and core store stay (R62, R73, R216).

A commit that arrives on a tree of its forme puts a member core into QUOIN wait, last in the tree's order of arrival; a core that is
no member goes on (R62, R63, R172, R271).

Under these premises blockCommit answers a next state. -/
def Obligations.Commit : Prop :=
  (∀ (s : State) (c : Nat),
     let z := s.core c
     z.st = .run → z.ended = true → s.executing c = true → z.closing = [] → z.commitTree = none →
     (∀ f, s.formeOf c = some f → (s.forme f).halting = false) → (z.heads.map (·.1)).Nodup →
     (∀ h ∈ z.heads, h.2.msg.typ = 1 ∨ h.2.msg.typ = 2) → z.badBanks false = [] →
     ∃ (y : Core) (ms : List Msg), exec (.blockCommit c Obs.quiet) s = .next ((s.setCore c y).forAll ms (fun t m => t.arrive c 4 m)) ∧
       y.st = .sleep ∧ y.heads = [] ∧ y.snap = none ∧ y.unfenced = [] ∧
       (∀ p < 16, y.port p =
         (let q := { z.port p with reserved := 0, staged := none, sent := false, lost := false }
          if (z.port p).state = 2 ∧ ((z.port p).lost = false ∨ (z.port p).staged = none) then { q with credit := q.credit + (z.port p).reserved - (match (z.port p).staged with
              | some m => (z.port p).spends m
              | none => 0) }
          else if (z.port p).staged.isSome then { q with disc := min (q.disc + 1) 0xFFFF } else q)) ∧
       (∀ p < 16, ∀ m, (z.port p).state = 2 → (z.port p).lost = false → (z.port p).staged = some m → m ∈ ms) ∧
       (∀ h ∈ z.heads, (y.galley h.1).items = (z.galley h.1).items.filter (fun j => !j.at h.2.msg.cls h.2.pos)) ∧
       (∀ g, g ∉ z.heads.map (·.1) → y.galley g = z.galley g) ∧
       y = { y with s := z.s, p := z.p, v := z.v, acc := z.acc, store := z.store, ecc := z.ecc, istore := z.istore, en0 := z.en0,
                    en1 := z.en1, blocks := z.blocks, nextBlock := z.nextBlock, nc := z.nc, rng := z.rng, flags := z.flags }) ∧
  (∀ (s : State) (c f t : Nat),
     let z := s.core c
     z.st = .run → z.ended = true → s.executing c = true → s.formeOf c = some f → (s.forme f).halting = false →
     z.commitTree = some t → (s.tree f t).external = false → z.badBanks false = [] →
     ∃ u, exec (.blockCommit c Obs.quiet) s = .next u ∧ (u.core c).tree = t ∧ (u.core c).heads = [] ∧
       (z.trees.testBit t = true → (u.core c).st = .quoin ∧ (u.tree f t).arrived = (s.tree f t).arrived ++ [c]) ∧
       (z.trees.testBit t = false → (u.core c).st = .sleep ∧ (u.tree f t).arrived = (s.tree f t).arrived) ∧
       ∀ d, d ≠ c → u.core d = s.core d)

/-- A residue mismatch of the commit check sends a block that may be executed again back for it, and otherwise stops the core with
RESIDUE in its commit unit; the block issues again from its snapshot with RPL set, core store as it stands (R94, R98-R100, R104,
R159).

The suspect window of a cluster ends with its count at 0, and nothing else changes (R517).

Under these premises each of blockCommit, replayBlock and suspectWindowExpiry answers a next state. -/
def Obligations.Reexecution : Prop :=
  (∀ (s : State) (c : Nat),
     let z := s.core c
     (z.st = .run → z.ended = true → s.executing c = true → z.banks ≠ [] → s.NoPending →
       ∃ u, exec (.blockCommit c { Obs.quiet with residue := true }) s = .next u ∧
         ((u.core c).flags.getLsbD 2 = true) ∧ (u.core c).store = z.store ∧ (u.core c).heads = z.heads ∧
         (z.mayReplay = true → (u.core c).st = .replay ∧ ∀ p, ((u.core c).port p).staged = none) ∧
         (z.mayReplay = false → (u.core c).st = .stopped ∧ wordAt (u.core c).fault 7 0 = 0x0C ∧
           (z.pc < 4096 → z.block < 64 → wordAt (u.core c).fault 31 26 = 4))) ∧
     (∀ n, z.st = .replay → s.executing c = true → z.snap = some n →
       ∃ y : Core, exec (.replayBlock c) s = .next (s.setCore c y) ∧ y.st = .run ∧ y.pc = (z.blockAt z.block).start ∧
         y.ended = false ∧ y.replayed = true ∧ y.s = n.s ∧ y.p = n.p ∧ y.v = n.v ∧ y.acc = n.acc ∧ y.rng = n.rng ∧
         y.h0.ctl = n.h0 ∧ y.h1.ctl = n.h1 ∧ y.flags = z.flags ||| 0x10 ∧ y.store = z.store ∧ y.ecc = z.ecc ∧ y.heads = z.heads ∧
         y.ports = z.ports ∧ y.galleys = z.galleys)) ∧
  (∀ (s : State) (k : Nat), ∃ t, exec (.suspectWindowExpiry k) s = .next t ∧ t = { s with clusters := t.clusters } ∧
     (∀ j, j ≠ k → t.cluster j = s.cluster j) ∧
     ((s.cluster k).winOpen = true → t.cluster k = { s.cluster k with winOpen := false, mismatches := 0 }) ∧
     ((s.cluster k).winOpen = false → t.cluster k = s.cluster k))

/-- A steering unit with no token in hand takes the control token that arrived first; with one it forwards the data item that arrived first on
the selected port while the port has credit, or discards it at a CLOSED one, and counts its run down; with the last item of the run the
token leaves its galley.  A token with a nonzero reserved field stops the core with STEER_TOKEN, and a poisoned one with
POISON_CONSUMED; with nothing to take, or no credit, nothing changes (R88-R92, R102).

While the running block names one of the unit's galleys or ports, which of its items the unit forwards is free, and the command still
changes no other core (R65; log 77, DESIGN CHOICE).

Under these premises steerForward answers a next state. -/
def Obligations.Steering : Prop :=
  ∀ (s : State) (c u : Nat),
    let z := s.core c
    let v := z.steer u
    let p := z.port v.out
    let exe := exec (.steerForward c u Obs.quiet) s
    let spent : Steer := { v with run := 0, sel := 0, tok := none }
    let gone (y : Core) (g : Nat) (i : Item) : Prop :=
      (y.galley g).items = (z.galley g).items.filter (fun j => !j.at i.msg.cls i.pos)
    s.executing c = true → v.en = true →
    (z.steerShared v = true → s.NoPending → ∃ t, exe = .next t ∧ ∀ d, d ≠ c → t.core d = s.core d) ∧
    (z.steerShared v = false →
      (v.run = 0 → (z.galley v.ctl).items = [] → exe = .next (s.setCore c z)) ∧
      (v.run ≠ 0 → (z.galley v.data).items = [] → exe = .next (s.setCore c z)) ∧
      (∀ i sl, v.run = 0 → (z.galley v.ctl).items.head? = some i → i.msg.slots.head? = some sl → sl.lo = .clean → sl.hi = .clean →
        (let w := sl.data.toNat % 2 ^ 32
         (bits w 31 17 = 0 → (z.galley v.data).items = [] →
           exe = .next (s.setCore c (z.updSteer u (fun v =>
             { v with run := bits w 16 1 + 1, sel := w % 2, tok := some (v.ctl, i) })))) ∧
         (bits w 31 17 ≠ 0 → s.NoPending → ∃ t, exe = .next t ∧ (t.core c).st = .stopped ∧ wordAt (t.core c).fault 7 0 = 0x09 ∧
           (t.core c).faultInfo = BitVec.ofNat 32 u))) ∧
      (∀ i sl, v.run = 0 → (z.galley v.ctl).items.head? = some i → i.msg.slots.head? = some sl → sl.lo = .poison → s.NoPending →
        ∃ t, exe = .next t ∧ (t.core c).st = .stopped ∧ wordAt (t.core c).fault 7 0 = 0x0A ∧ (t.core c).faultInfo = 6) ∧
      (∀ i r, v.run = r + 1 → (z.galley v.data).items.head? = some i → (i.msg.typ = 1 ∨ i.msg.typ = 2) →
        (∀ t, v.tok = some t → t.1 ≠ v.data ∧ (t.2.msg.typ = 1 ∨ t.2.msg.typ = 2)) →
        let after (y : Core) : Prop := gone y v.data i ∧ y.steer u = (if r = 0 then spent else { v with run := r }) ∧
          (r = 0 → ∀ t, v.tok = some t → gone y t.1 t.2)
        (p.state = 2 → p.kind = 0 → i.msg.slots.length ≤ p.credit → ∃ (y : Core) (m : Msg) (ms : List Msg),
          exe = .next ((s.setCore c y).forAll (m :: ms) (fun t m => t.arrive c 4 m)) ∧
          m.typ = 1 ∧ m.dest = p.target ∧ m.sport = v.out ∧ m.galley = p.galley ∧ m.tag = i.msg.tag ∧ m.slots = i.msg.slots ∧
          (y.port v.out).credit = p.credit - i.msg.slots.length ∧ after y) ∧
        (p.state = 3 → ∃ (y : Core) (ms : List Msg), exe = .next ((s.setCore c y).forAll ms (fun t m => t.arrive c 4 m)) ∧
          (y.port v.out).disc = min (p.disc + 1) 0xFFFF ∧ (∀ m ∈ ms, m.typ = 7) ∧ after y) ∧
        (p.state ≠ 3 → (p.state = 2 → p.credit < i.msg.slots.length) → exe = .next (s.setCore c z))))

/-! ### The fabric -/

/-- A message that a router receives on a sound link or from its own core, of the forme of its cluster, with no waypoint and no reserved
field, advances its hop count and is given its output: the local port at its destination core, and else the direction of X-then-Y routing when that is not
blocked; where it is blocked and no detour serves it, the message is absorbed and counted, with one CLOSE to the source core of a DATA
message.  Nothing but the router changes (R249, R253).

A message that enters a cluster of another forme, or of none, is dropped and counted in chase_drop; else one with a reserved field in
type_drop; else one whose hop count reaches 1,023 in hop_drop; a header with wrong parity counts on its link, its message is gone, and
the RUNNING forme of the cluster faults with LINK_DETECT or the device waits to reset.  Nothing is sent in its place (R245-R247, R249,
R255).

Under these premises route answers a next state. -/
def Obligations.Routing : Prop :=
  (∀ (s : State) (c i v : Nat) (b : RBuf) (rest : List RBuf),
     let r := s.router c
     let m := { b.msg with hops := b.msg.hops + 1 }
     s.routes c = true → Map.get [] r.inq (i * 2 + v) = b :: rest → Map.get [] r.wait (i * 2 + v) = [] → b.routed = false →
     (i < 4 ∨ i = 4 ∧ r.injectEntry b.msg.sport = none) → s.formeOf c = some b.msg.forme →
     b.msg.reserved = false → b.msg.hops < 1022 → b.msg.wp = none → b.msg.dkind = 0 → b.msg.typ ≠ MT.group →
     r.reduceEntry m = none →
     (∀ w ∈ codewords b.msg.slots, w = .clean ∨ w = .poison) →
     let queued (q : List RBuf) (y : Router) : Prop :=
       y = { r with inq := y.inq, wait := y.wait, detoured := y.detoured, absorbed := y.absorbed } ∧
       (∀ k, Map.get [] y.wait k = Map.get [] r.wait k) ∧ ∀ k, Map.get [] y.inq k = if k = i * 2 + v then q else Map.get [] r.inq k
     let exe := exec (.route c i v LinkObs.quiet) s
     let d := if coreX c < coreX m.dest then 1 else if coreX m.dest < coreX c then 3 else if coreY c < coreY m.dest then 2 else 0
     (m.dest = c → ∃ y, exe = .next (s.setRouter c y) ∧ queued ({ msg := m, routed := true, outs := 16 } :: rest) y) ∧
     (m.dest ≠ c → s.blockedDir m.forme c d = false →
       ∃ y, exe = .next (s.setRouter c y) ∧ queued ({ msg := m, routed := true, outs := 2 ^ d } :: rest) y) ∧
     (m.dest ≠ c → s.blockedDir m.forme c d = true → r.detour.find? (fun e => detourFits e d m.dest) = none →
       ∃ y, queued rest y ∧ y.absorbed = min (r.absorbed + 1) 0xFFFFFFFF ∧
         exe = .next (if (m.typ = MT.data ∨ m.typ = MT.connect) ∧ m.sy < 448 then
             (s.setRouter c y).arrive c 4 (closeMsgTo m.forme c m.src m.sport true) else s.setRouter c y))) ∧
  (∀ (s : State) (c i v : Nat) (b : RBuf) (rest : List RBuf),
     let r := s.router c
     s.routes c = true → Map.get [] r.inq (i * 2 + v) = b :: rest → Map.get [] r.wait (i * 2 + v) = [] → b.routed = false → i ≤ 4 →
     (∀ w ∈ codewords b.msg.slots, w = .clean ∨ w = .poison) →
     let gone (y : Router) : Prop :=
       y = { r with inq := y.inq, wait := y.wait, chaseDrop := y.chaseDrop, typeDrop := y.typeDrop, hopDrop := y.hopDrop } ∧
       (∀ k, Map.get [] y.wait k = Map.get [] r.wait k) ∧
       ∀ k, Map.get [] y.inq k = if k = i * 2 + v then rest else Map.get [] r.inq k
     let exe := exec (.route c i v LinkObs.quiet) s
     let other := s.entersCluster c i = true ∧ s.formeOf c ≠ some b.msg.forme
     (other → ∃ y, exe = .next (s.setRouter c y) ∧ gone y ∧ y.chaseDrop = min (r.chaseDrop + 1) 0xFFFFFFFF ∧
       y.typeDrop = r.typeDrop ∧ y.hopDrop = r.hopDrop) ∧
     (¬ other → b.msg.reserved = true → ∃ y, exe = .next (s.setRouter c y) ∧ gone y ∧ y.typeDrop = min (r.typeDrop + 1) 0xFFFF ∧
       y.chaseDrop = r.chaseDrop ∧ y.hopDrop = r.hopDrop) ∧
     (¬ other → b.msg.reserved = false → 1022 ≤ b.msg.hops → ∃ y, exe = .next (s.setRouter c y) ∧ gone y ∧
       y.hopDrop = min (r.hopDrop + 1) 0xFFFF ∧ y.chaseDrop = r.chaseDrop ∧ y.typeDrop = r.typeDrop) ∧
     (s.NoPending → ∃ t, exec (.route c i v { LinkObs.quiet with headerParity := true }) s = .next t ∧
       Map.get [] (t.router c).inq (i * 2 + v) = rest ∧ (i < 4 → Map.get 0 (t.router c).hpar i = min (Map.get 0 r.hpar i + 1) 0xFF) ∧
       (s.resetsFor (s.formeOf c) = true → t.mgmt.resetWait = true) ∧
       ∀ f, s.formeOf c = some f → (s.forme f).resets = false → (s.forme f).state = 3 →
         (t.forme f).state = 5 ∧ (t.forme f).status = Config.faultCode ∧ (t.forme f).faultClass = Config.clsLinkDetect))

/-- An output that has credit sends the message that its rotation names, whole, to the neighbour's input, the local port's queue or the
unit beyond the edge, a station with room for 32 requests on VC0 and 8 on VC1, and VC0 only when VC1 has nothing to send; without credit nothing moves; a message whose direction has been cut off
since it was routed is absorbed.  The window of the link scores ends with every score at zero, and a message held for merging goes on in
its direction once every input has arrived or its timer expires (R237, R239, R240, R248, R253, R264, R309, R329).

Under these premises each of routerForward, linkScoreWindowEnd and reduceForward answers a next state. -/
def Obligations.RouterOutputs : Prop :=
  (∀ (s : State) (c d v i : Nat) (b : RBuf), s.routes c = true → s.outputPick c d v = some (i, b) →
    let cleared := s.updRouter c (fun r => r.sentCopy i d v b)
    let exe := exec (.routerForward c d v) s
    let first := v = 0 → s.canSend c d 1 = false
    (∀ n, d < 4 → s.blockedDir b.msg.forme c d = false → s.outputRoom c d v b.msg = true → first → s.neighbour c d = some n →
      exe = .next (cleared.arrive n (opposite d) b.msg)) ∧
    (d = 4 → Map.get [] (s.router c).ejq v = [] → Map.get [] (s.router c).wait (i * 2 + v) = [] → first → b.msg.typ ≠ MT.group → ∃ y : Router,
      exe = .next (s.setRouter c y) ∧ Map.get [] y.ejq v = [b.msg] ∧ Map.get 0 y.rot (8 + v) = (i + 1) % 6 ∧
      (b.outs = 16 → Map.get [] y.inq (i * 2 + v) = (Map.get [] (s.router c).inq (i * 2 + v)).drop 1)) ∧
    (d = 5 → b.msg.dkind = 2 → first →
      let room := if v = 0 then (s.station b.msg.dest).q0.length < 32 else (s.station b.msg.dest).q1.length < 8
      (room → exe = .next (cleared.toUnit b.msg)) ∧ (¬ room → exe = .next s)) ∧
    (d = 5 → s.unitRoom v b.msg = true → first → exe = .next (cleared.toUnit b.msg)) ∧
    (d < 4 → s.blockedDir b.msg.forme c d = true → exe = .next (cleared.absorb c b.msg)) ∧
    (s.cutOff b.msg.forme c d = false → (s.outputRoom c d v b.msg = false ∨ ¬ first) → exe = .next s)) ∧
  (∀ (s : State) (c : Nat), exec (.linkScoreWindowEnd c) s
    = .next (s.updRouter c (fun r => { r with score := [], winCorr := [], winUncorr := [] }))) ∧
  ∀ (s : State) (c i t : Nat) (expired : Bool) (h : Held) (e : BitVec 64), s.routes c = true →
    (s.router c).held.find? (fun h => h.entry == i) = some h → (s.router c).reduce[i]? = some e → s.target h.msg = some t →
    s.blockedDir h.msg.forme c (xyDirection t c) = false →
    ((expired = true ∨ h.arrived &&& bits e.toNat 42 38 = bits e.toNat 42 38) → ∃ y : Router,
      exec (.reduceForward c i expired) s = .next (s.setRouter c y) ∧ (∀ g ∈ y.held, g.entry ≠ i) ∧
      Map.get [] y.inq 10 = Map.get [] (s.router c).inq 10 ++ [{ msg := h.msg, routed := true, outs := 2 ^ xyDirection t c }]) ∧
    (expired = false → h.arrived &&& bits e.toNat 42 38 ≠ bits e.toNat 42 38 → exec (.reduceForward c i expired) s = .next s)

/-- A sum of two slots adds each element of the format: FP32 and BF16 exactly and then rounded to nearest even with the canonical NaN,
INT32 with wrap; a codeword whose operand is poisoned or uncorrectable is poisoned, and any other is clean (R222, R266).

The next contribution of a combining galley opens an entry of its key, or is added to the entry that has it and its slots return as
one CREDIT; an entry whose total reaches EXPECT, or passes it, leaves for the read side as one item.  A galley with a spill extension that holds up a
block grants its channel one message's credit and owes it (R220-R222, R226).

Under these premises each of combiningAdd and spillCreditGrant answers a next state. -/
def Obligations.Combining : Prop :=
  (∀ (fmt : Nat) (x y : Slot), fmt < 2 ∨ fmt = 0xB →
     let w := if fmt = 1 then 16 else 32
     let z := Slot.add fmt x y
     (∀ i < 256 / w,
       let a := elemBits w x.data.toNat i
       let b := elemBits w y.data.toNat i
       (fmt < 2 → elemBits w z.data.toNat i = (encodeNum fmt ((decodeNum fmt a).add (decodeNum fmt b)).1 Rnd.rne).1) ∧
       (fmt = 0xB → elemBits w z.data.toNat i = (a + b) % 2 ^ 32)) ∧
     (z.lo = .poison ↔ (x.lo = .poison ∨ x.lo = .uncorrectable ∨ y.lo = .poison ∨ y.lo = .uncorrectable)) ∧
     (z.hi = .poison ↔ (x.hi = .poison ∨ x.hi = .uncorrectable ∨ y.hi = .poison ∨ y.hi = .uncorrectable)) ∧
     (z.lo = .poison ∨ z.lo = .clean) ∧ (z.hi = .poison ∨ z.hi = .clean)) ∧
  ((∀ (s : State) (c n : Nat) (a : Item) (rest : List Item),
     let z := s.core c
     let g := z.galley n
     let m := a.msg
     s.routes c = true → g.contribs = a :: rest → soundSlots m.slots →
     let exe := exec (.combiningAdd c n Obs.quiet) s
     let y' (y : Core) : Prop := (y.galley n).contribs = rest ∧ (∀ k, k ≠ n → y.galley k = z.galley k) ∧ y.store = z.store ∧ y.s = z.s
     let ends (y : Core) (total : Nat) (sum : List Slot) (cls : Nat) : Prop := (∀ f ∈ (y.galley n).entries, f.key ≠ m.tag) ∧
       ∃ j : Item, (y.galley n).items = g.items ++ [j] ∧ j.msg.slots = sum ∧ j.msg.cls = cls ∧ j.msg.count = min 4095 total
     (g.entries.find? (fun e => e.key == m.tag) = none → ∃ y, exe = .next (s.setCore c y) ∧ y' y ∧
       (m.count < g.expect → (y.galley n).items = g.items ∧
         { key := m.tag, total := m.count, slots := m.slots, pos := a.pos, owner := m } ∈ (y.galley n).entries) ∧
       (g.expect ≤ m.count → ends y m.count m.slots m.cls)) ∧
     (∀ e, g.entries.find? (fun e => e.key == m.tag) = some e → soundSlots e.slots → m.sy < 448 →
       let sum := List.zipWith (Slot.add g.addFmt) e.slots m.slots
       ∃ y, exe = .next ((s.setCore c y).arrive c 4 (creditMsgTo z.forme c m.src m.sport m.slots.length)) ∧ y' y ∧
         (e.total + m.count < g.expect → (y.galley n).items = g.items ∧
           { e with total := e.total + m.count, slots := sum } ∈ (y.galley n).entries) ∧
         (g.expect ≤ e.total + m.count → ends y (e.total + m.count) sum e.owner.cls))) ∧
   ∀ (s : State) (c n : Nat) (ch : Chan) (rest : List Chan), s.executing c = true → ((s.core c).galley n).chans = ch :: rest →
     ((s.core c).spillGrantDue n ch.size = true → ∃ y, exec (.spillCreditGrant c n) s
       = .next ((s.setCore c y).arrive c 4 (creditMsgTo (s.core c).forme c ch.src ch.port ch.size)) ∧
       (y.galley n).debt = ((s.core c).galley n).debt + ch.size ∧ (y.galley n).items = ((s.core c).galley n).items) ∧
     ((s.core c).spillGrantDue n ch.size = false → exec (.spillCreditGrant c n) s = .next s))

/-! ### Galleys and connections -/

/-- A message at its plain galley becomes the last item of its class when its slots are free, moves the write pointer by its length and
wakes the core; it waits while they are not; it goes to the spill extension of a galley that has one with items in it or with no room,
where its slots stand in the core store one after another; and one for an unused galley is absorbed.  The extension's oldest message is
read from the core store and moves into the class buffer when there is room for it (R67, R211, R212, R227; its place in the
extension is log 84, DESIGN CHOICE).

Under these premises each of galleyWrite and spillRefill answers a next state. -/
def Obligations.GalleyArrivals : Prop :=
  (∀ (s : State) (c v : Nat) (m : Msg), s.routes c = true → s.ejHead c v = some m → galleyType m.typ = true → (s.core c).st ≠ .empty →
    let z := s.core c
    let g := z.galley m.galley
    let exe := exec (.galleyWrite c v) s
    let gone := s.popEj c v
    let item (y : Core) : Prop := y = { z with galleys := y.galleys, gated := false, fails := 0 } ∧
      (∀ k, k ≠ m.galley → y.galley k = z.galley k) ∧
      (y.galley m.galley).items = g.items ++ [{ msg := m, pos := Map.get 0 g.wp m.cls % g.size m.cls }] ∧
      Map.get 0 (y.galley m.galley).wp m.cls = (Map.get 0 g.wp m.cls + m.slots.length) % (2 * g.size m.cls)
    (g.mode = 1 → g.turnsAway m = false → (g.hasSpill = true → g.ext = [] ∧ m.slots.length ≤ g.freeSlots 0) → 0 < g.size m.cls →
      m.slots.length ≤ g.freeSlots m.cls →
      ∃ y, exe = .next (gone.setCore c y) ∧ item y) ∧
    (g.mode = 1 → g.turnsAway m = false → g.hasSpill = false → g.freeSlots m.cls < m.slots.length → exe = .next s) ∧
    (g.mode = 1 → g.turnsAway m = false → g.hasSpill = true → (g.ext ≠ [] ∨ g.freeSlots 0 < m.slots.length) →
      g.spillSize < g.occ + m.slots.length → exe = .next s) ∧
    (g.mode = 1 → g.turnsAway m = false → g.hasSpill = true → (g.ext ≠ [] ∨ g.freeSlots 0 < m.slots.length) →
      g.occ + m.slots.length ≤ g.spillSize → ∃ (y : Core) (j : Item), exe = .next (gone.setCore c y) ∧ (y.galley m.galley).ext = g.ext ++ [j] ∧
        j.pos = g.spillPos ∧ j.msg.slots.length = m.slots.length ∧
        (∀ k sl, m.slots[k]? = some sl → y.cwNow (g.spillCw (j.pos + k)) = (sl.data.toNat % 2 ^ 128, sl.lo) ∧
          y.cwNow (g.spillCw (j.pos + k) + 1) = (sl.data.toNat / 2 ^ 128, sl.hi)) ∧
        (y.galley m.galley).items = g.items ∧ Map.get 0 y.sc (0x242 + 4 * m.galley) = min (Map.get 0 z.sc (0x242 + 4 * m.galley) + 1) 0xFFFFFFFF) ∧
    (g.turnsAway m = true → exe = .next (gone.updRouter c (fun r => { r with absorbed := min (r.absorbed + 1) 0xFFFFFFFF })))) ∧
  ∀ (s : State) (c n : Nat) (a : Item) (rest : List Item), s.routes c = true → ((s.core c).galley n).ext = a :: rest →
    let g := (s.core c).galley n
    let m := a.msg
    let cw (k : Nat) : Nat × Cw := (s.core c).cwNow (g.spillCw (a.pos + k / 2) + k % 2)
    (m.slots.length ≤ g.freeSlots m.cls → (∀ k < 2 * m.slots.length, (cw k).2 = .clean) →
      ∃ (y : Core) (l : List Slot), exec (.spillRefill c n) s = .next (s.setCore c y) ∧ (y.galley n).ext = rest ∧
        (y.galley n).items.map (·.msg) = g.items.map (·.msg) ++ [{ m with slots := l }] ∧ y.gated = false ∧
        l.length = m.slots.length ∧ ∀ k sl, l[k]? = some sl → sl.lo = .clean ∧ sl.hi = .clean ∧
          sl.data.toNat = (cw (2 * k)).1 + 2 ^ 128 * (cw (2 * k + 1)).1) ∧
    (g.freeSlots m.cls < m.slots.length → exec (.spillRefill c n) s = .next s)

/-- A CONNECT at its core meets the checks of R204 in their order, and the first that fails sends REFUSE with its reason; when none
fails the channel is accepted and ACCEPT grants floor(S / maxch) slots (R204, R205, R207).

The other connection messages at a core with a program: ACCEPT opens a PENDING port with its grant, REFUSE returns one to IDLE with
its reason and REF, CLOSE from the reader closes a port, CLOSE from the sender removes its channel, and CREDIT adds to an OPEN port's
credit; each that concerns a port wakes the core, and no other port changes (R67, R200, R205, R209).

Under these premises each of connectMsg, acceptMsg, refuseMsg, closeMsg and creditMsg answers a next state. -/
def Obligations.Connections : Prop :=
  (∀ (s : State) (c : Nat) (m : Msg), s.routes c = true → s.ejHead c 1 = some m → m.typ = MT.connect → m.connOk = true →
     let z := s.core c
     let g := z.galley m.cnGalley
     let exe := exec (.connectMsg { kind := 1, n := c }) s
     let refuses (k : Nat) : Prop := ∃ r : Msg, exe = .next ((s.popEj c 1).arrive c 4 r) ∧ r.typ = MT.refuse ∧ r.vc = 1 ∧
       r.dest = m.cnSource ∧ bytesAt r.body 0 1 = m.cnPort ∧ bytesAt r.body 1 1 = k
     let listens := g.listening = true ∧ (g.mode = 1 ∨ g.mode = 2)
     let key := m.cnKey = g.key
     let rank := m.cnVc = 0 → m.cnRank < z.rank
     let cls := m.cnCls < g.classes
     let size := m.cnSize ≤ g.grant m.cnCls ∧ (g.mode = 2 → m.cnSize = g.isize)
     let room := g.chans.length < g.maxch
     (¬ listens → refuses 1) ∧ (listens → ¬ key → refuses 2) ∧ (listens → key → ¬ rank → refuses 3) ∧
     (listens → key → rank → ¬ cls → refuses 4) ∧ (listens → key → rank → cls → ¬ size → refuses 6) ∧
     (listens → key → rank → cls → size → ¬ room → refuses 5) ∧
     (listens → key → rank → cls → size → room → ∃ (y : Core) (r : Msg),
       exe = .next (((s.popEj c 1).setCore c y).arrive c 4 r) ∧ y = { z with galleys := y.galleys } ∧
       (∀ k, k ≠ m.cnGalley → y.galley k = z.galley k) ∧
       (y.galley m.cnGalley).chans = g.chans ++ [⟨m.cnSource, m.cnPort, m.cnCls, m.cnSize, m.cnLenient, m.cnVc, g.grant m.cnCls⟩] ∧
       (y.galley m.cnGalley).items = g.items ∧ r.typ = MT.accept ∧ r.dest = m.cnSource ∧ bytesAt r.body 0 1 = m.cnPort ∧
       bytesAt r.body 2 2 = g.size (if g.mode = 2 then 0 else m.cnCls) / g.maxch)) ∧
  (∀ (s : State) (c : Nat) (m : Msg), s.routes c = true → s.ejHead c 1 = some m → m.connOk = true → (s.core c).st ≠ .empty →
     let z := s.core c
     let gone := s.popEj c 1
     let n := bytesAt m.body 0 1 % 16
     let p := z.port n
     let goes (i : Instr) (q : Port) : Prop := ∃ y, exec i s = .next (gone.setCore c y) ∧ y.port n = q ∧
       (∀ k, k ≠ n → y.port k = z.port k) ∧
       y = { z with ports := y.ports, chan := y.chan, chanCnt := y.chanCnt, gated := false, fails := 0 }
     (m.typ = MT.accept → p.state = 1 → p.target = m.src → m.sy < 448 →
       goes (.acceptMsg c) { p with state := 2, credit := bytesAt m.body 2 2 }) ∧
     (m.typ = MT.refuse → p.state = 1 → p.target = m.src →
       goes (.refuseMsg c) { p with state := 0, credit := 0, reason := bytesAt m.body 1 1 % 8 }) ∧
     (m.typ = MT.close → bit (bytesAt m.body 0 1) 4 = true → (p.state = 1 ∨ p.state = 2) →
       goes (.closeMsg c) { p with state := 3, credit := 0, reserved := 0, lost := p.staged.isSome }) ∧
     (m.typ = MT.credit → p.state = 2 → goes (.creditMsg c) { p with credit := p.credit + bytesAt m.body 2 2 }) ∧
     (m.typ = MT.close → bit (bytesAt m.body 0 1) 4 = false → ∃ y, exec (.closeMsg c) s = .next (gone.setCore c y) ∧
       y = { z with galleys := y.galleys } ∧ ∀ g, (y.galley g).items = (z.galley g).items) ∧
     (m.typ = MT.accept → (p.state ≠ 1 ∨ p.target ≠ m.src) → m.sy < 448 →
       exec (.acceptMsg c) s = .next (gone.arrive c 4 (closeMsgTo m.forme c m.src n false))))

/-! ### Trees and the end of a forme's run -/

/-- A tree without an external exchange whose condition is met in a RUNNING forme releases: its counter advances modulo 2^32, its
arrivals are taken up, all of them on an AND tree and the first on an OR tree, and the members released leave QUOIN wait with their
clocks running; a tree whose condition is not met does nothing.  A layer quoin with a field waiting to go dark, and the halt tree, are
other statements' (R67, R271, R300).

A release of the halt tree with no block of the forme running takes the forme from RUNNING to LOADED, and no forme command stays
outstanding on its ring (R279, R299; the end of commands other than RUN there is the model's reading, log 27, DEDUCED).

Under these premises quoinRelease answers a next state. -/
def Obligations.QuoinRelease : Prop :=
  (∀ (s : State) (f t : Nat), (s.forme f).state = 3 → (s.tree f t).external = false →
     let tr := s.tree f t
     let out := if tr.isOr then tr.arrived.take 1 else tr.arrived
     (s.treeMet f t = true → (s.forme f).layer ≠ some t → (s.forme f).halt ≠ some t →
       ∃ u, exec (.quoinRelease f t) s = .next u ∧ (u.forme f).state = 3 ∧ (u.tree f t).releases = (tr.releases + 1) % 2 ^ 32 ∧
         (u.tree f t).arrived = tr.arrived.drop out.length ∧
         (∀ c, (c ∈ out ∧ (s.core c).st = .quoin ∧ (s.core c).tree = t) →
           u.core c = { s.core c with st := .sleep, gated := false, fails := 0 }) ∧
         (∀ c, ¬ (c ∈ out ∧ (s.core c).st = .quoin ∧ (s.core c).tree = t) → u.core c = s.core c)) ∧
     (s.treeMet f t = false → exec (.quoinRelease f t) s = .next s)) ∧
  (∀ (s : State) (f t : Nat), (s.forme f).state = 3 → (s.tree f t).external = false → s.treeMet f t = true →
     (s.forme f).layer ≠ some t → (s.forme f).halt = some t → s.anyRunning f = false → s.NoPending →
     ∃ u, exec (.quoinRelease f t) s = .next u ∧ (u.forme f).state = 2 ∧ (u.forme f).halting = false ∧
       (u.forme f).status = Config.ok ∧ (∀ c ∈ (u.ring f).cmds, c.ofForme = false) ∧ u.stations = s.stations ∧ u.fports = s.fports)

/-- While no field waits for its layer quoin: a RUNNING forme whose every present cluster votes all-blocked faults with DEADLOCK, and one whose patience is spent with TIMEOUT and
class WATCHDOG: it enters FAULTED, every forme command that has started completes, and no core, station or port changes (R280, R281,
R301).

A core that dies has its site appended to the hellbox with origin 3, its router's messages are absorbed by the routers beside it, and its
RUNNING forme faults with FAULT, class CORE_LOST and the core's name; a core in no forme causes the entry alone (R105, R253, R280,
R521).

Under these premises each of deadlock, patienceExpiry and coreLost answers a next state. -/
def Obligations.FormeFaults : Prop :=
  (∀ (s : State) (f : Nat), (s.forme f).state = 3 →
     let faults (i : Instr) (status cls : Nat) : Prop := s.NoPending → ∃ u, exec i s = .next u ∧ (u.forme f).state = 5 ∧ (u.forme f).status = status ∧
       (u.forme f).faultClass = cls ∧ (u.forme f).faultCore = none ∧ (∀ c ∈ (u.ring f).cmds, c.ofForme = false) ∧
       (∀ g, g ≠ f → (u.forme g).state = (s.forme g).state) ∧ u.cores = s.cores ∧ u.routers = s.routers ∧ u.stations = s.stations ∧
       u.fports = s.fports
     (((s.forme f).clusters.filter (s.clusterPresentIn f)).all (s.votes f) = true → faults (.deadlock f) 0x0B 0x0C) ∧
     (((s.forme f).clusters.filter (s.clusterPresentIn f)).all (s.votes f) = false → exec (.deadlock f) s = .next s) ∧
     (s.impatient f = true → faults (.patienceExpiry f) 0x0A 0x0D) ∧
     (s.impatient f = false → exec (.patienceExpiry f) s = .next s)) ∧
  (∀ (s : State) (c : Nat) (power : Bool), c < 512 * 448 → s.canDie c = true → s.NoPending →
     ∃ u, exec (.coreLost c power) s = .next u ∧ (u.router c).inq = [] ∧ (u.router c).wait = [] ∧ (u.router c).ejq = [] ∧
       (u.router c).held = [] ∧ (∀ d, d ≠ c → (∀ n < 4, s.neighbour c n ≠ some d) → u.router d = s.router d) ∧ u.cores = s.cores ∧ u.mapGen = s.mapGen + 1 ∧
       (∃ e : HbEntry, u.hellbox = s.hellbox ++ [e] ∧ e.kind = 1 ∧ e.field = fieldOf c ∧ e.col = coreX c % 64 ∧ e.origin = 3 ∧
         e.row = siteOf (s.column (columnKey c)) (coreY c % 64)) ∧
       (∀ f, s.formeOf c = some f → (s.forme f).state = 3 → (u.forme f).state = 5 ∧ (u.forme f).status = 0x06 ∧
         (u.forme f).faultClass = 0x0B ∧ (u.forme f).faultCore = some c) ∧
       (s.formeOf c = none → u.formes = s.formes))

/-! ### Rings -/

/-- What every command of a ring meets when it is the ring's oldest entry: nothing happens while the ring cannot start it; a DEP whose
entry did not complete with OK completes it with SKIPPED; an opcode that is none completes with BADARG at offset 0; a refused command
completes with the first refusal of R423 and has no other effect; and the command of another row leaves the entry where it is (R419,
R420, R422-R424).

The order of the refusals of a command: its encoding first, with BADARG at the lowest offending offset, then the device state, then
the forme state, with BADSTATE (R423, R434, R444, R445). -/
def Obligations.RingStart : Prop :=
  (∀ row ∈ ringRows, ∀ (s : State) (r : Nat),
     let exe := exec (row.2 r) s
     (s.startable r = none → exe = .next s) ∧
     ∀ e, s.startable r = some e →
       let c := s.headCmd r e
       ((s.ring r).depFails e.2 = true → exe = .next ((s.taken r c).finish r c
         { status := 0x05, detail := 0, mask := 0, value := (e.1 + 2 ^ 32 - 1) % 2 ^ 32 })) ∧
       ((s.ring r).depFails e.2 = false → isOpcode c.opcode = false →
         exe = .next ((s.taken r c).finish r c { status := 0x03, detail := 0, mask := 0, value := 0 })) ∧
       ((s.ring r).depFails e.2 = false → isOpcode c.opcode = true → c.opcode ≠ row.1 → exe = .next s) ∧
       ((s.ring r).depFails e.2 = false → c.opcode = row.1 → ∀ k, s.refusedAtStart r c = some k →
         exe = .next ((s.taken r c).finish r c k))) ∧
  (∀ (s : State) (r : Nat) (c : Cmd),
     (∀ o, badEncoding r c.opcode c.entry = some o → s.refusedAtStart r c = some { status := 0x03, detail := o, mask := 0, value := 0 }) ∧
     (badEncoding r c.opcode c.entry = none → s.deviceAdmits c.opcode = false →
       ∃ k, s.refusedAtStart r c = some k ∧ k.status = 0x02 ∧ k.detail % 256 = s.regs.devState % 256) ∧
     (badEncoding r c.opcode c.entry = none → s.deviceAdmits c.opcode = true → ∀ f, s.judgedBy r c = some f →
       (s.formeAdmits r f c = false → ∃ k, s.refusedAtStart r c = some k ∧ k.status = 0x02) ∧
       (s.formeAdmits r f c = true → s.refusedAtStart r c = none)))

/-- NOP completes with OK at once: its completion entry stands in host memory at the ring's completion index with its tag, its index,
its opcode and the phase of the index, the consumer line holds the indices and the count of outstanding commands, and no other byte of
host memory changes; with NOCOMPL no entry is written (R413, R425, R427, R429).

FENCE completes when every entry that it waits for has completed, and stays outstanding until then; MARK posts one record of kind 2
to the management stream and completes, once the event ring has the record when that ring is enabled (R426, R443).

Under these premises each of nopCommand, fenceCommand and mark answers a next state. -/
def Obligations.SmallCommands : Prop :=
  (∀ (s : State) (r : Nat) (c : Cmd), s.starts r 0x1000 c → s.ringLink r = true → s.noFence →
     let g := s.ring r
     let a := g.cbase + g.produced % g.csize * 32
     let kept := g.cmds.filter (fun d => d.sq != c.sq)
     (c.flags.testBit 2 = false → (a + 32 ≤ g.cline ∨ g.cline + 64 ≤ a) → ∃ t, exec (.nopCommand r) s = .next t ∧
       t.hostNat a 4 = c.tag ∧ t.hostNat (a + 4) 4 = c.sq % 2 ^ 32 ∧ t.hostNat (a + 8) 2 = 0x1000 ∧ t.hostNat (a + 10) 1 = 0 ∧
       t.hostNat (a + 11) 1 = (if g.produced / g.csize % 2 = 0 then 1 else 0) ∧ t.hostNat (a + 12) 4 = 0 ∧
       t.hostNat (a + 16) 8 = 0 ∧ t.hostNat (a + 24) 8 = 0 ∧ t.hostNat g.cline 4 = g.fetched % 2 ^ 32 ∧
       t.hostNat (g.cline + 4) 4 = (g.produced + 1) % 2 ^ 32 ∧ t.hostNat (g.cline + 8) 4 = kept.length % 2 ^ 32 ∧
       (∀ b, (b < a ∨ a + 32 ≤ b) → (b < g.cline ∨ g.cline + 64 ≤ b) → t.hostByte b = s.hostByte b) ∧
       (t.ring r).produced = (g.produced + 1) % 2 ^ 32 ∧ (t.ring r).cmds = kept ∧ (t.ring r).entries = g.entries.tail) ∧
     (c.flags.testBit 2 = true → ∃ t, exec (.nopCommand r) s = .next t ∧ (t.ring r).produced = g.produced ∧
       (t.ring r).cmds = kept ∧ ∀ b, (b < g.cline ∨ g.cline + 64 ≤ b) → t.hostByte b = s.hostByte b)) ∧
  (∀ (s : State) (r : Nat) (c : Cmd),
     (s.starts r 0x100C c → s.noFence →
       (((s.taken r c).fenceMet c) = true → exec (.fenceCommand r) s = .next ((s.taken r c).complete r c Compl.done)) ∧
       (((s.taken r c).fenceMet c) = false → exec (.fenceCommand r) s = .next ((s.taken r c).writeConsumer r))) ∧
     (s.starts r 0x100D c → s.mgmt.started = true → ∃ t, exec (.mark r) s = .next t ∧
       ((s.ring 72).state ≠ 1 → t.isDone r c.sq) ∧ ((s.ring 72).state = 1 → ∃ d, (t.ring r).cmd c.sq = some d ∧ d.ended.isSome = true) ∧
       t.mgmt.seqNext = s.mgmt.seqNext + 1 ∧ (∃ b : Rec, t.mgmt.held.getLast? = some b ∧ bytesAt b.bytes 4 1 = 2 ∧
         bytesAt b.bytes 32 8 = bytesAt c.entry 16 8 ∧ bytesAt b.bytes 48 1 = r % 256) ∧ t.formes = s.formes ∧ t.cores = s.cores))

/-- While no command that has ended waits for its writes: a doorbell store makes an ACTIVE ring fetch every entry up to the tail, in order,
from its submission memory; invalid indices fetch nothing and write BADARG to err, and nothing is fetched while the proof recorder's buffer
is full.  A store to a record ring's consumer line takes the host's index, or writes BADARG to err (R411, R414,
R416, R417).

The record rings: with room, the oldest event record goes to the event ring at its producer index with the count of the dropped, a
report record's header and slots to the report ring, furniture first where it would wrap, and a proof record to the proof ring with its
seq; each counts its units and its seq (R414, R449, R451, R452, R546, R547).

Under these premises each of doorbellSnoop, consumerLineSnoop, eventRecordWrite, reportRecordWrite and proofRecordWrite answers a next
state. -/
def Obligations.RingTraffic : Prop :=
  (∀ (s₀ : State) (r : Nat) (stores : List HostStore),
     let s := s₀.hostStores stores
     let g := s.ring r
     let tail := s.hostNat g.dbline 4
     let head := s.hostNat (g.dbline + 4) 4
     let n := ahead tail g.fetched
     let good := n ≤ g.size ∧ ahead g.produced head ≤ g.csize
     (r < 72 → g.state = 1 → s.ringLink r = true → s.NoneEnded → s.proofFull = true → exec (.doorbellSnoop r stores) s₀ = .next s) ∧
     (r < 72 → g.state = 1 → s.ringLink r = true → s.NoneEnded → s.proofFull = false → g.fetched < 2 ^ 32 → good → ∃ t, exec (.doorbellSnoop r stores) s₀ = .next t ∧
       (t.ring r).fetched = (g.fetched + n) % 2 ^ 32 ∧ (t.ring r).tail = tail ∧ (t.ring r).consumed = head ∧
       (t.ring r).entries = g.entries ++ (List.range n).map (fun i =>
         ((g.fetched + i) % 2 ^ 32, s.hostRead (g.sbase + 64 * ((g.fetched + i) % 2 ^ 32 % g.size)) 64)) ∧
       (t.ring r).cmds = g.cmds ∧ (∀ q, q ≠ r → t.ring q = s.ring q)) ∧
     (r < 72 → g.state = 1 → s.ringLink r = true → s.NoneEnded → s.proofFull = false → ¬ good →
       exec (.doorbellSnoop r stores) s₀ = .next (s.updRing r (fun g => { g with err := 0x03 }))) ∧
     (72 ≤ r → g.state = 1 → s.ringLink r = true → ∃ t, exec (.consumerLineSnoop r stores) s₀ = .next t ∧ t.hostMem = s.hostMem ∧
       (∀ q, q ≠ r → t.ring q = s.ring q) ∧
       t.ring r = if ahead g.produced tail ≤ g.size then { g with consumed := tail } else { g with err := 0x03 })) ∧
  (∀ (s : State), s.NoneEnded →
     (∀ (b : Bytes) (rest : List Bytes), s.mgmt.evHold = b :: rest → b.length = 64 → (s.ring 72).state = 1 → s.ringLink 72 = true →
       0 < (s.ring 72).space →
       let a := (s.ring 72).sbase + 64 * ((s.ring 72).produced % (s.ring 72).size)
       (a + 64 ≤ (s.ring 72).cline ∨ (s.ring 72).cline + 64 ≤ a) →
       ∃ t, exec .eventRecordWrite s = .next t ∧ t.mgmt.evHold = rest ∧ t.mgmt.evDropped = 0 ∧
         (t.ring 72).produced = ((s.ring 72).produced + 1) % 2 ^ 32 ∧
         t.hostRead a 64 = b.take 24 ++ le (min s.mgmt.evDropped 0xFFFFFFFF) 4 ++ b.drop 28) ∧
     (∀ (p : Report) (rest : List Report) (f : Nat), s.reports = p :: rest → (s.ring 73).state = 1 → s.ringLink 73 = true →
       (s.ring 73).furniture (1 + p.slots.length) = some f → ∃ t, exec .reportRecordWrite s = .next t ∧ t.reports = rest ∧
         (t.ring 73).produced = ((if f = 0 then (s.ring 73).produced else ((s.ring 73).produced + f) % 2 ^ 32) + (1 + p.slots.length)) % 2 ^ 32 ∧
         (t.ring 73).seq = ((s.ring 73).seq + 1) % 2 ^ 32 ∧ t.cores = s.cores) ∧
     (∀ (b : Bytes) (rest : List Bytes) (f : Nat), s.recorder.queue = b :: rest → (s.ring 74).state = 1 → s.ringLink 74 = true →
       (s.ring 74).furniture (b.length / 32) = some f → ∃ t, exec .proofRecordWrite s = .next t ∧
         (∃ more, t.recorder.queue = rest ++ more) ∧
         (t.ring 74).seq = ((s.ring 74).seq + 1) % 2 ^ 32 ∧ t.cores = s.cores ∧ t.mgmt = s.mgmt) ∧
     (∀ (p : Report) (rest : List Report), s.reports = p :: rest → (s.ring 73).state = 1 →
       (s.ring 73).furniture (1 + p.slots.length) = none → exec .reportRecordWrite s = .next s))

/-! ### Formes -/

/-- OPEN_FORME over a good rectangle, while no field waits for its layer quoin, makes the forme OPEN with its view of absence and its containment mode, gives it its present
clusters at clock step 33, and resets its present cores with their stores zero (R49, R276, R277, R405).

OPEN_WINDOW with a good record replaces that one window record of the forme (R48, R283).

Under these premises each of openForme and openWindow answers a next state. -/
def Obligations.OpenForme : Prop :=
  (∀ (s : State) (r : Nat) (c : Cmd), s.starts r 0x0003 c →
     let f := bytesAt c.entry 16 1
     let q := c.rect
     let t := (s.taken r c).viewed f c
     let l := rectClusters q.1 q.2.1 q.2.2.1 q.2.2.2
     rectOk q = true → s.holderOf l = none → (∀ k ∈ l, (s.field (clusterField k)).testing = 0) → t.viewRefused f = none → s.NoPending →
     ∃ u, exec (.openForme r) s = .next u ∧ u.isDone r c.sq ∧ (u.forme f).state = 1 ∧
       ((u.forme f).cx0, (u.forme f).cy0, (u.forme f).cx1, (u.forme f).cy1) = q ∧ (u.forme f).mapGen = s.mapGen ∧
       (u.forme f).viewHb = s.hellbox.length ∧
       (u.forme f).resets = (if bytesAt c.entry 17 1 = 0 then s.regs.resetDefault else decide (bytesAt c.entry 17 1 = 2)) ∧
       (∀ k ∈ l, t.clusterPresentIn f k = true → (u.cluster k).forme = some f ∧ (u.cluster k).formeStep = 33) ∧
       (∀ k ∈ t.formeCores f, u.core k = { Core.init with forme := f, mapGen := s.mapGen }) ∧
       (∀ k, k ∉ t.formeCores f → u.core k = s.core k) ∧ (∀ g, g ≠ f → u.forme g = s.forme g) ∧ u.stations = s.stations) ∧
  (∀ (s : State) (r : Nat) (c : Cmd), s.starts r 0x0008 c →
     let b := c.entry
     let f := bytesAt b 16 1
     let w : Window := { base := bytesAt b 24 8, limit := bytesAt b 32 8, rights := bytesAt b 42 1 }
     firstBad (windowChecks (entryReader b) 24) = none → s.windowAbsent (entryReader b) 24 = none →
     ∃ u, exec (.openWindow r) s = .next u ∧ u.isDone r c.sq ∧ (∀ g, g ≠ f → u.forme g = s.forme g) ∧
       u.forme f = { s.forme f with near := (u.forme f).near, host := (u.forme f).host } ∧
       (bytesAt b 40 1 = 0 → (u.forme f).host = (s.forme f).host ∧ ∀ n, Map.get Window.init (u.forme f).near n =
         if n = bytesAt b 41 1 then w else Map.get Window.init (s.forme f).near n) ∧
       (bytesAt b 40 1 = 1 → (u.forme f).near = (s.forme f).near ∧ ∀ n, Map.get Window.init (u.forme f).host n =
         if n = bytesAt b 41 1 then w else Map.get Window.init (s.forme f).host n))

/-- CLOSE_FORME and RESET_FORME, while no field waits for its layer quoin, put the forme into DRAINING: its forme commands end, its cores
stop, its queued near-tier requests are discarded and its feeder requests are withdrawn; the command itself stays outstanding (R279,
R281, R282, R438; which near-tier requests go is log 99, DEDUCED).

The end of draining resets every present core of the forme and empties its routers of the forme's messages; a forme that is being
reset is then OPEN with its windows and stereo entries, and one that is being closed is EMPTY, holds no cluster, no port and no
context (R106, R279, R282, R338).

Under these premises each of formeDrainDone, closeForme and resetForme answers a next state. -/
def Obligations.Draining : Prop :=
  (∀ (s : State) (r : Nat) (c : Cmd),
     let f := bytesAt c.entry 16 1
     let drains (i : Instr) (close : Bool) : Prop := s.NoPending → ∃ u, exec i s = .next u ∧ (u.forme f).state = 6 ∧ (u.forme f).closing = close ∧
       ((s.forme f).state = 3 → (u.forme f).status = 0x0D) ∧ ((s.forme f).state ≠ 3 → (u.forme f).status = (s.forme f).status) ∧
       (∀ d ∈ (u.ring f).cmds, d.ofForme = false) ∧ (∀ k ∈ s.formeCores f, (u.core k).st = .stopped ∨ (u.core k).st = .empty) ∧
       (∀ k, k ∉ s.formeCores f → u.core k = s.core k) ∧
       (∀ n, ∀ m ∈ (u.station n).q0 ++ (u.station n).q1 ++ (u.station n).outside, m.forme ≠ f) ∧
       (∀ p < 16, ∀ m ∈ (u.fport p).ops, m.forme ≠ f) ∧ (∀ g, g ≠ f → u.forme g = s.forme g) ∧
       ((∀ d ∈ (s.ring r).cmds, d.sq ≠ c.sq) → ¬ u.isDone r c.sq)
     (s.starts r 0x0004 c → drains (.closeForme r) true) ∧ (s.starts r 0x0005 c → drains (.resetForme r) false)) ∧
  (∀ (s : State) (f : Nat), (s.forme f).state = 6 → s.stations.any (fun e => e.2.busyFor f) = false →
     s.fports.any (fun e => e.2.busyFor f) = false →
     ∃ u, exec (.formeDrainDone f) s = .next u ∧ (u.ring f).partials = [] ∧
       (∀ c ∈ s.formeCores f, u.core c = { Core.init with
         store := (s.core c).store, ecc := (s.core c).ecc, forme := (s.core c).forme, mapGen := (s.core c).mapGen }) ∧
       (∀ c, c ∉ s.formeCores f → u.core c = s.core c) ∧
       (∀ c ∈ (s.forme f).coreList, ∀ k, (∀ b ∈ Map.get [] (u.router c).inq k, b.msg.forme ≠ f) ∧
         ∀ m ∈ Map.get [] (u.router c).wait k ++ Map.get [] (u.router c).ejq k, m.forme ≠ f) ∧
       ((s.forme f).closing = false → (u.forme f).state = 1 ∧ (u.forme f).near = (s.forme f).near ∧
         (u.forme f).host = (s.forme f).host ∧ (u.forme f).stereo = (s.forme f).stereo ∧ u.clusters = s.clusters ∧
         u.fports = s.fports ∧ u.stations = s.stations) ∧
       ((s.forme f).closing = true → u.forme f = Forme.init ∧ (∀ k ∈ (s.forme f).clusters, (u.cluster k).forme = none) ∧
         (∀ p < 16, (u.fport p).bound.map (·.forme) ≠ some f) ∧
         ∀ n k, (Map.get Ctx.init (u.station n).ctx k).live = true → (Map.get Ctx.init (u.station n).ctx k).forme ≠ f))

/-- LOAD_IMPOSITION of an image that every check accepts makes the forme LOADED with the image's header fields and its release counters
at zero, loads each core record, asleep with its rank and with its INIT enables, and completes with the map generation; an image outside
the host windows completes with DENIED and one that a check refuses with BADARG or ABSENT, and neither changes the forme or a core
(R113, R279, R288-R296).

Under these premises loadImposition answers a next state. -/
def Obligations.LoadImposition : Prop :=
  ∀ (s : State) (r : Nat) (c : Cmd), s.starts r 0x1001 c →
    let a := bytesAt c.entry 16 8
    let len := bytesAt c.entry 24 8
    let g : Rd := fun off n => s.hostNat (a + off) n
    let e := sectionOf g 1
    let o (i : Nat) : Nat := e.off + 1024 * i
    let same (u : State) : Prop := u.isDone r c.sq ∧ u.formes = s.formes ∧ u.cores = s.cores ∧ u.routers = s.routers
    (s.hostAdmits r a len 0 = false → ∃ u, exec (.loadImposition r) s = .next u ∧ same u) ∧
    (s.hostAdmits r a len 0 = true → ∀ k, s.judgeImage g r len = some k → (∃ u, exec (.loadImposition r) s = .next u ∧ same u) ∧
      (k.status = 0x03 ∨ k.status = 0x04)) ∧
    (s.hostAdmits r a len 0 = true → s.judgeImage g r len = none → ∃ u, exec (.loadImposition r) s = .next u ∧ u.isDone r c.sq ∧
      (u.forme r).state = 2 ∧ (u.forme r).patience = g 28 4 ∧ (u.forme r).keeper = clusterAt (g 24 2) (g 26 2) ∧
      (u.forme r).censusAddr = g 40 8 ∧ (∀ t, ((u.tree r t)).releases = 0) ∧
      (∀ i < e.count, (∀ j < e.count, j ≠ i → recCore g (o j) ≠ recCore g (o i)) →
        let x := u.core (recCore g (o i))
        x.st = .sleep ∧ x.rank = g (o i + 4) 2 ∧ x.trees = g (o i + 6) 2 ∧
        (∀ n < 64, x.enabled n = bit (g (o i + 64 + 8 * n + 6) 1) 3 ∧ (x.blockAt n).start = g (o i + 64 + 8 * n) 2 ∧
          (x.blockAt n).inputs = g (o i + 64 + 8 * n + 2) 2 ∧ (x.blockAt n).sends = g (o i + 64 + 8 * n + 4) 2) ∧
        ∀ n < 16, (x.galley n).cfg = BitVec.ofNat 32 (g (o i + 576 + 16 * n) 4) ∧ (x.port n).state = 0))

/-- RUN takes a LOADED forme whose external trees' ports are bound to it to RUNNING, with every arrival forgotten, every present core's
enables set from its INIT bits and no core in QUOIN wait, and stays outstanding; WAIT_QUOIN completes with the release counter at once
when that has reached its target, and else stays outstanding (R113, R297, R300, R366).

Under these premises each of run and waitQuoin answers a next state. -/
def Obligations.RunAndWait : Prop :=
  ∀ (s : State) (r : Nat) (c : Cmd),
    (s.starts r 0x1005 c → s.treesBound r = true → ∃ u, exec (.run r) s = .next u ∧ (u.forme r).state = 3 ∧
      (u.forme r).halting = false ∧ (∀ t, (u.tree r t).arrived = []) ∧ (∀ t, (u.tree r t).releases = (s.tree r t).releases) ∧
      ¬ u.isDone r c.sq ∧ (∀ k, k ∉ s.formeCores r → u.core k = s.core k) ∧
      (∀ k ∈ s.formeCores r, (s.core k).st ≠ .empty → (u.core k).st ≠ .quoin ∧ (u.core k).gated = false ∧
        ∀ n < 64, (u.core k).enabled n = ((s.core k).blockAt n).initEn)) ∧
    (s.starts r 0x1005 c → s.treesBound r = false → ∃ u, exec (.run r) s = .next u ∧ u.isDone r c.sq ∧ u.formes = s.formes ∧
      u.cores = s.cores) ∧
    (s.starts r 0x1006 c →
      let reached := (((s.tree r (bytesAt c.entry 16 1)).releases + 2 ^ 32 - bytesAt c.entry 20 4) % 2 ^ 32 < 2 ^ 31)
      (reached → exec (.waitQuoin r) s = .next ((s.taken r c).finish r c
        { status := 0x00, detail := 0, mask := 0, value := (s.tree r (bytesAt c.entry 16 1)).releases })) ∧
      (¬ reached → exec (.waitQuoin r) s = .next ((s.taken r c).writeConsumer r)))

/-! ### Admin commands -/

/-- RESET_CORE and RESET_CLUSTER reset each present core that they name under R106: its program and registers are gone, its core store
and its forme stay, it has no arrival left on a tree of its forme, and its channels are closed (R106, R505, R506).

BIND_FEEDER binds a present, unbound port whose edge row has a present core of the forme; its unbind form takes the binding away, its open
frames first closed; SET_STEREO replaces the forme's stereo entries by the good ones of its table (R365-R367).

Under these premises each of resetCluster, resetCore, bindFeeder, unbindFeeder and setStereo answers a next state. -/
def Obligations.AdminUnits : Prop :=
  (∀ (s : State) (r : Nat) (c : Cmd),
     let a := bytesAt c.entry 16 2
     let b := bytesAt c.entry 18 2
     let clean (u : State) (k : Nat) : Prop := u.core k = { Core.init with
       store := (s.core k).store, ecc := (s.core k).ecc, forme := (s.core k).forme, mapGen := (s.core k).mapGen,
       counted := (s.forme ((s.formeOf k).getD 64)).countedNow }
     (s.starts r 0x0007 c → a < 512 → b < 448 → s.presentHere (coreAt a b) = true → ∃ u, exec (.resetCore r) s = .next u ∧
       u.isDone r c.sq ∧ clean u (coreAt a b) ∧ (∀ k, k ≠ coreAt a b → u.core k = s.core k) ∧
       (∀ f, s.formeOf (coreAt a b) = some f → f < 64 → ∀ t, coreAt a b ∉ (u.tree f t).arrived)) ∧
     (s.starts r 0x0006 c → a < 128 → b < 112 →
       let l := (clusterCores (clusterAt a b)).filter s.presentHere
       l ≠ [] → ∃ u, exec (.resetCluster r) s = .next u ∧ u.isDone r c.sq ∧ (∀ k ∈ l, clean u k) ∧ ∀ k, k ∉ l → u.core k = s.core k)) ∧
  (∀ (s : State) (r : Nat) (c : Cmd),
     let f := bytesAt c.entry 16 1
     let p := bytesAt c.entry 17 1
     (s.starts r 0x0009 c → c.unbinds = false → s.portRefused f p = none → s.edgeCores f p ≠ [] → bytesAt c.entry 20 2 ≠ 0 →
       ∃ u, exec (.bindFeeder r) s = .next u ∧ u.isDone r c.sq ∧
         u.fport p = { s.fport p with bound := some ⟨f, bytesAt c.entry 20 2, bytesAt c.entry 24 4⟩ } ∧
         (∀ q, q ≠ p → u.fport q = s.fport q) ∧ u.formes = s.formes) ∧
     (s.starts r 0x0009 c → c.unbinds = true → s.portRefused f p = none → (s.fport p).bound ≠ none →
       ∃ u, exec (.unbindFeeder r) s = .next u ∧ u.isDone r c.sq ∧ (u.fport p).bound = none ∧ (u.fport p).openWrite = none ∧
         (u.fport p).openGrad = none ∧
         ((s.fport p).openWrite = none → (s.fport p).openGrad = none → u.fport p = { s.fport p with bound := none }) ∧
         (∀ q, q ≠ p → u.fport q = s.fport q) ∧ u.formes = s.formes) ∧
     (s.starts r 0x000A c → bytesAt c.entry 17 1 ≤ 16 →
       let entry (i : Nat) : Option Stereo := stereoEntry (s.hostRead (bytesAt c.entry 24 8 + 16 * i) 16)
       (∀ i < bytesAt c.entry 17 1, entry i ≠ none) → ∃ u, exec (.setStereo r) s = .next u ∧ u.isDone r c.sq ∧
         (u.forme f).stereo.map some = (List.range (bytesAt c.entry 17 1)).map entry ∧
         u.forme f = { s.forme f with stereo := (u.forme f).stereo } ∧ ∀ g, g ≠ f → u.forme g = s.forme g))

/-- SET_CLOCKS with good operands sets the forme's step and its clusters' at once for kind 0, and leaves a change of an edge clock waiting
for kinds 1 to 4; such a change happens, the oldest of its clock first, at its CLOCK_CHANGE (R460, R466, R470).

Under these premises each of setClocks and clockChange answers a next state. -/
def Obligations.ClockSettings : Prop :=
  (∀ (s : State) (r : Nat) (c : Cmd), s.starts r 0x0002 c → clockRefused c.entry = none →
    let kind := bytesAt c.entry 16 1
    let f := bytesAt c.entry 17 1
    let mhz := bytesAt c.entry 18 2
    (kind = 0 → ∃ u, exec (.setClocks r) s = .next u ∧ u.isDone r c.sq ∧ u.forme f = { s.forme f with clockStep := mhz / 100 } ∧
      (∀ k, u.cluster k = if k ∈ (s.forme f).clusters ∧ (s.cluster k).forme = some f
        then { s.cluster k with formeStep := mhz / 100 } else s.cluster k) ∧ u.clocks = s.clocks) ∧
    (kind ≠ 0 → ∃ u, exec (.setClocks r) s = .next u ∧ u.isDone r c.sq ∧ u.formes = s.formes ∧ u.clusters = s.clusters ∧
      u.clocks.pending = s.clocks.pending ++
        (if kind ≤ 2 then maskList (bytesAt c.entry 24 8) 56 else [0]).map (fun n => (kind, n, mhz)))) ∧
  ∀ (s : State) (i kind unit mhz : Nat), s.clocks.pending[i]? = some (kind, unit, mhz) →
    (∀ j < i, ∀ d, s.clocks.pending[j]? = some d → ¬ (d.1 = kind ∧ d.2.1 = unit)) →
    let t := { s with clocks := { s.clocks with pending := s.clocks.pending.eraseIdx i } }
    exec (.clockChange i) s = .next (
      if kind = 1 then t.updField unit (fun x => { x with stc := mhz })
      else if kind = 2 then t.updFport unit (fun x => { x with ptc := mhz })
      else if kind = 3 then { t with clocks := { t.clocks with sbc := mhz } }
      else { t with clocks := { t.clocks with mpc := mhz } })

/-- LOAD_LEADING with a good plan makes it the current plan and chains it into the ageing history, and the clusters in no forme take
their records; START_TEST puts its fields under test and stays outstanding, and completes at once for an empty mask (R433, R503, R526,
R528; the chain's fields and the test's details are the model's, logs 43 and 45).

Under these premises each of loadLeading and startTest answers a next state. -/
def Obligations.PlanAndTest : Prop :=
  ∀ (s : State) (r : Nat) (c : Cmd),
    (s.starts r 0x0001 c → bytesAt c.entry 24 4 = planLen →
      let g : Rd := fun off n => s.hostNat (bytesAt c.entry 16 8 + off) n
      s.planOk g s.enabledMask = true → ∃ u, exec (.loadLeading r) s = .next u ∧ u.isDone r c.sq ∧
        u.plan.generation = g 16 4 ∧ u.plan.plans = g 20 4 ∧ u.plan.clusters = (planOf g s.enabledMask).clusters ∧
        u.plan.histPlans = (g 20 4 + 1) % 2 ^ 32 ∧
        (∀ k ∈ allClusters, s.fieldEnabled (clusterField k) = true → (s.cluster k).forme = none →
          (u.cluster k).voff = (Map.get Lead.init u.plan.clusters k).voff ∧ (u.cluster k).cap = (Map.get Lead.init u.plan.clusters k).cap) ∧
        ∀ k, (s.cluster k).forme ≠ none → u.cluster k = s.cluster k) ∧
    (s.starts r 0x0001 c → bytesAt c.entry 24 4 = planLen →
      s.planOk (fun off n => s.hostNat (bytesAt c.entry 16 8 + off) n) s.enabledMask = false →
      ∃ u, exec (.loadLeading r) s = .next u ∧ u.isDone r c.sq ∧ u.plan = s.plan ∧ u.clusters = s.clusters) ∧
    (s.starts r 0x000D c → s.testRefused (bytesAt c.entry 16 1) (bytesAt c.entry 24 8) = none →
      (bytesAt c.entry 24 8 = 0 → exec (.startTest r) s = .next ((s.taken r c).finish r c Compl.done)) ∧
      (bytesAt c.entry 24 8 ≠ 0 → ∃ u, exec (.startTest r) s = .next u ∧ ¬ u.isDone r c.sq ∧
        (∀ n < 56, (u.field n).testing = if (bytesAt c.entry 24 8).testBit n then bytesAt c.entry 16 1 + 1 else (s.field n).testing) ∧
        u.formes = s.formes ∧ u.cores = s.cores))

/-- QUERY writes the answer at its address and completes with its length, or with NOSPACE and that length when it does not fit; ATTEST
and HELLBOX_EXPORT with room put one operation into the signature queue and stay outstanding, and complete with NOSPACE without it (R35,
R41, R430, R439, R572, R575).

Under these premises each of query, attest and hellboxExport answers a next state. -/
def Obligations.Documents : Prop :=
  ∀ (s : State) (r : Nat) (c : Cmd),
    let room := bytesAt c.entry 24 4
    let asks (i : Instr) (n kind : Nat) : Prop :=
      (room < n → exec i s = .next ((s.taken r c).finish r c { status := 0x0F, detail := 0, mask := 0, value := n })) ∧
      (n ≤ room → ∃ (u : State) (b : Bytes), exec i s = .next u ∧ ¬ u.isDone r c.sq ∧
        u.mgmt.sigQueue = s.mgmt.sigQueue ++ [⟨kind, r, c.sq, b⟩] ∧ u.formes = s.formes ∧ u.cores = s.cores)
    (s.starts r 0x000B c → (bytesAt c.entry 16 2 = 7 → s.phys.stacked = true) → queryBad c.entry = none →
      let t := (s.taken r c).beforeQuery c.entry
      let q := t.queryBytes c.entry
      (bytesAt c.entry 40 4 < q.1.length → exec (.query r) s = .next (t.finish r c
        { status := 0x0F, detail := 0, mask := 0, value := q.1.length })) ∧
      (q.1.length ≤ bytesAt c.entry 40 4 → exec (.query r) s = .next
        (({ t.hostPut (bytesAt c.entry 32 8) q.1 false with free := t.free + q.2 }).finish r c
          { status := 0x00, detail := 0, mask := 0, value := q.1.length }))) ∧
    (s.starts r 0x000C c → asks (.attest r) 17472 1) ∧
    (s.starts r 0x000E c → asks (.hellboxExport r) (s.additionsBytes.length + 17088) 2)

/-! ### Memory stations -/

/-- READ returns the lines of station memory with the sums that the combining area holds for them, WRITE puts its slots there with the
state of their codewords and notes the writer of a LIVE context, GATHER packs the elements at its indices and SCATTER writes them, the
last of equal addresses winning; every other byte stays, and the answer enters the fabric with status OK (R315-R318, R339, R341; which
byte of a SCATTER is its first is log 98, DEDUCED).

Under these premises each of stationRead, stationWrite, gather and scatter answers a next state. -/
def Obligations.StationAccess : Prop :=
  ∀ (s : State) (n : Nat) (m : Msg), (s.station n).sound →
    let x := s.station n
    let p := x.pop m
    let d := m.desc
    let k := dLen d
    let off := dAddr d % 2 ^ 33
    let ok : Status := Status.of 0
    let line (o : Nat) : Slot :=
      let v : Slot := { slotOf (x.mem.readN o 32) with lo := Map.get Cw.clean x.ecc (o / 16), hi := Map.get Cw.clean x.ecc (o / 16 + 1) }
      match x.heldSum o with
      | some c => Slot.add c.fmt v c.slot
      | none => v
    let data : List Slot := (List.range k).map (fun i => line (off + 32 * i))
    let flagged : Status := { ok with flags := if anyPoison data then 2 else 0 }
    let e := esize d
    let wrote (a : Nat) (y : Station) : Prop := ∀ i, Map.get Ctx.init y.ctx i = (
      let c := Map.get Ctx.init x.ctx i
      if c.live = true ∧ c.base ≤ a ∧ a < c.base + c.length then { c with writer := some m.src } else c)
    (s.serves n 1 m → 1 ≤ k → k ≤ 7 → m.len = 0 → dAddr d % 32 = 0 → s.access n m.forme [⟨dAddr d, 32 * k, 0⟩] = 0 →
      (bit d 8 = false → dArg d = 0 → ∃ y : Station, y = { p with selfRefresh := y.selfRefresh } ∧
        exec (.stationRead n Obs.quiet) s = .next (s.answers n m y s.recorder s.free data flagged)) ∧
      (bit d 8 = true → dArg d < 4096 → ∀ g, s.gateOf m.forme m.src = some g → ∃ (y : Station) (a : Msg),
        y = { p with selfRefresh := y.selfRefresh } ∧ a.typ = MT.group ∧ a.dkind = 1 ∧ a.dest = dArg d ∧ a.tag = m.tag ∧ a.slots = data ∧
        exec (.stationRead n Obs.quiet) s
          = .next (((s.setStation n y).comeIn g (gateInput g) a).enter (m.reply.msg MT.stationRsp n 511 [] flagged)))) ∧
    (s.serves n 2 m → 1 ≤ k → k ≤ 8 → m.len = k → dAddr d % 32 = 0 → dArg d = 0 → s.access n m.forme [⟨dAddr d, 32 * k, 1⟩] = 0 →
      ∃ (y : Station) (rec : Recorder), exec (.stationWrite n Obs.quiet) s = .next (s.answers n m y rec s.free [] ok) ∧
        y = { p with mem := y.mem, ecc := y.ecc, comb := y.comb, ctx := y.ctx, selfRefresh := y.selfRefresh, replay := y.replay,
                     replayNext := y.replayNext, unlisted := y.unlisted } ∧
        (∀ i < k, ∀ v, m.slots[i]? = some v → ofLe (y.mem.readN (off + 32 * i) 32) = v.data.toNat ∧
          Map.get Cw.clean y.ecc (off / 16 + 2 * i) = v.lo ∧ Map.get Cw.clean y.ecc (off / 16 + 2 * i + 1) = v.hi ∧
          y.heldSum (off + 32 * i) = none) ∧
        (∀ b, (b < off ∨ off + 32 * k ≤ b) → y.mem.read b = x.mem.read b) ∧ wrote (dAddr d) y) ∧
    (s.serves n 3 m → 1 ≤ k → k ≤ 56 → k * e ≤ 224 → dAddr d % e = 0 → m.len = (k + 7) / 8 → bits (dArg d) 15 2 = 0 →
      bits (dArg d) 31 28 = 0 → bit d 8 = false → bits (dArg d) 27 16 = 0 → (∀ w ∈ codewords m.slots, w = .clean) → x.comb = [] →
      s.access n m.forme ((elemAddrs d m.slots).map (fun a => ⟨a, e, 0⟩)) = 0 → ∃ (y : Station) (l : List Slot) (st : Status),
        y = { p with selfRefresh := y.selfRefresh } ∧ exec (.gather n Obs.quiet) s = .next (s.answers n m y s.recorder s.free l st) ∧
        st.code = 0 ∧ l.length = (k * e + 31) / 32 ∧ ∀ j < k, ∀ i < e,
          elemBits 8 (l.getD ((j * e + i) / 32) zeroSlot).data.toNat ((j * e + i) % 32)
            = (x.mem.read ((elemAddrs d m.slots).getD j 0 % 2 ^ 33 + i)).toNat) ∧
    (s.serves n 4 m → 1 ≤ k → k ≤ 8 → k * e ≤ 192 → dAddr d % e = 0 → m.len = 1 + (k * e + 31) / 32 → bits (dArg d) 31 2 = 0 →
      (∀ w ∈ codewords m.slots, w = .clean) → x.comb = [] →
      let l := elemAddrs d (m.slots.take 1)
      s.access n m.forme (l.map (fun a => ⟨a, e, 1⟩)) = 0 →
      ∃ (y : Station) (rec : Recorder), exec (.scatter n Obs.quiet) s = .next (s.answers n m y rec s.free [] ok) ∧
        y = { p with mem := y.mem, ecc := y.ecc, ctx := y.ctx, selfRefresh := y.selfRefresh } ∧ wrote (l.headD 0) y ∧
        (∀ j < k, (∀ i, j < i → i < k → l.getD i 0 ≠ l.getD j 0) → ∀ i < e, (y.mem.read (l.getD j 0 % 2 ^ 33 + i)).toNat
          = elemBits 8 (m.slots.getD (1 + (j * e + i) / 32) zeroSlot).data.toNat ((j * e + i) % 32)) ∧
        ∀ b, (∀ a ∈ l, b < a % 2 ^ 33 ∨ a % 2 ^ 33 + e ≤ b) → y.mem.read b = x.mem.read b)

/-- ACCUM adds its slots once under its key, in place in the buffer and in the combining area for DRAM; a key that the record holds gives
DUP and adds nothing, and a full record gives NOSPACE.  CONVERT rewrites elements, UPDATE runs its recipe over each index and writes its
output streams, and FLUSH writes the covered sums back (R326-R328, R330-R334).

Under these premises each of accum, convert, stationUpdate and flush answers a next state. -/
def Obligations.StationCompute : Prop :=
  ∀ (s : State) (n : Nat) (m : Msg), (s.station n).sound → soundSlots m.slots →
    let x := s.station n
    let p := x.pop m
    let d := m.desc
    let a := dArg d
    let k := dLen d
    let off := dAddr d % 2 ^ 33
    let ok : Status := Status.of 0
    let slotAt (y : Station) (o : Nat) : Slot :=
      { slotOf (y.mem.readN o 32) with lo := Map.get Cw.clean y.ecc (o / 16), hi := Map.get Cw.clean y.ecc (o / 16 + 1) }
    (s.serves n 5 m → 1 ≤ k → k ≤ 8 → m.len = k → dAddr d % 32 = 0 → bits a 25 24 ≠ 3 → bits a 31 26 = 0 →
      s.access n m.forme [⟨dAddr d, 32 * k, 2⟩] = 0 → x.replay = none → m.tag < 65536 →
      let c := m.contrib
      let q := if c.bucket = 0 then p else p.pruned c
      let exe := exec (.accum n Obs.quiet) s
      (q.hasKey c = true → ∃ (y : Station) (rec : Recorder) (fr : Nat), y = { q with dup := y.dup, orders := y.orders } ∧
        exe = .next (s.answers n m y rec fr [] { ok with flags := 1 })) ∧
      (q.hasKey c = false → c.bucket ≠ 0 → 262144 ≤ q.idem.length → ∃ y : Station, y = { q with nospace := y.nospace } ∧
        exe = .next (s.answers n m y s.recorder s.free (failData (replyLen 1 d)) (Status.of 0x0F))) ∧
      (q.hasKey c = false → (c.bucket = 0 ∨ q.idem.length < 262144) →
        (dramEnd ≤ off → ∃ (y : Station) (rec : Recorder) (fr : Nat), exe = .next (s.answers n m y rec fr [] ok) ∧
          y = { q with mem := y.mem, ecc := y.ecc, ctx := y.ctx, orders := y.orders,
                       idem := if c.bucket = 0 then q.idem else q.idem ++ [c.key] } ∧
          (∀ i < k, ∀ v, m.slots[i]? = some v → slotAt y (off + 32 * i) = Slot.add c.fmt (slotAt x (off + 32 * i)) v) ∧
          ∀ b, (b < off ∨ off + 32 * k ≤ b) → y.mem.read b = x.mem.read b) ∧
        (off + 32 * k ≤ dramEnd → (∀ i < k, ∀ e, x.heldSum (off + 32 * i) = some e → e.fmt = c.fmt) → x.comb.length + k ≤ 65536 →
          ∃ (y : Station) (rec : Recorder) (fr : Nat), exe = .next (s.answers n m y rec fr [] ok) ∧
            y = { q with comb := y.comb, ctx := y.ctx, combined := y.combined, orders := y.orders,
                         idem := if c.bucket = 0 then q.idem else q.idem ++ [c.key] } ∧
            (∀ i < k, ∀ v, m.slots[i]? = some v → y.heldSum (off + 32 * i) = some ⟨off / 32 + i, c.fmt,
              match x.heldSum (off + 32 * i) with
              | some e => Slot.add c.fmt e.slot v
              | none => v⟩) ∧
            ∀ o, (o / 32 < off / 32 ∨ off / 32 + k ≤ o / 32) → y.heldSum o = x.heldSum o))) ∧
    (s.serves n 6 m → (∀ w ∈ codewords m.slots, w = .clean) → x.comb = [] →
      let src := bits a 3 0
      let dst := bits a 7 4
      let dest := bytesAt ((m.slots.headD zeroSlot).bytes) 0 8
      let count := 32 * k
      let sb := count * fmtStream src / 8
      let db := count * fmtStream dst / 8
      1 ≤ k → m.len = 1 → convertible src = true → convertible dst = true → bits a 9 8 < 2 → bits a 31 12 = 0 → dAddr d % 32 = 0 →
      dest % 32 = 0 → dest < 2 ^ 42 → (dAddr d + sb ≤ dest ∨ dest + db ≤ dAddr d ∨ (dAddr d = dest ∧ fmtStream src = fmtStream dst)) →
      s.access n m.forme [⟨dAddr d, sb, 1⟩, ⟨dest, db, 1⟩] = 0 → ∃ (y : Station) (v2 v3 : Nat),
        exec (.convert n Obs.quiet) s = .next (s.answers n m y s.recorder s.free [] { ok with v1 := count, v2 := v2, v3 := v3 }) ∧
        y = { p with mem := y.mem, ecc := y.ecc, selfRefresh := y.selfRefresh } ∧
        (∀ i < count, y.mem.elem (fmtStream dst) (dest % 2 ^ 33) i = (encodeNum dst (decodeNum src (x.mem.elem (fmtStream src) off i))
          { mode := bits a 9 8, ieee := bit a 10, flush := bit a 11, u := 0 }).1) ∧
        ∀ b, (b < dest % 2 ^ 33 ∨ dest % 2 ^ 33 + db ≤ b) → y.mem.read b = x.mem.read b) ∧
    (∀ r : Recipe, s.serves n 7 m → m.len = 0 → k = 0 → a = 0 → dAddr d % 256 = 0 → x.comb = [] →
      (∀ i < 16, Map.get Cw.clean x.ecc (off / 16 + i) = .clean) → recipeOf (x.mem.readN off 256) = some r →
      s.access n m.forme [⟨dAddr d, 256, 2⟩] = 0 → s.access n m.forme (r.accesses n) = 0 →
      let input (e : Nat) (t : Option Stream) : Nat := match t with
        | some t => if t.reads then fp32 (decodeNum t.fmt (x.mem.elem (fmtStream t.fmt) t.off e)) else 0
        | none => 0
      ∃ (y : Station) (v2 v3 : Nat),
        exec (.stationUpdate n Obs.quiet) s = .next (s.answers n m y s.recorder s.free [] { ok with v1 := r.count, v2 := v2, v3 := v3 }) ∧
        y = { p with mem := y.mem, ecc := y.ecc, selfRefresh := y.selfRefresh } ∧
        (∀ i t, r.streams[i]? = some (some t) → t.writes = true → ∀ e < r.count, y.mem.elem (fmtStream t.fmt) t.off e
          = (encodeNum t.fmt (decodeNum 0 ((recipeElem r (r.streams.map (input e))).getD i 0)) { Rnd.rne with ieee := false }).1) ∧
        ∀ b, (∀ t, some t ∈ r.streams → t.writes = true → b < t.off ∨ t.off + t.bytes r.count ≤ b) → y.mem.read b = x.mem.read b) ∧
    (s.serves n 11 m → dAddr d % 65536 = 0 → a = 0 → m.len = 0 → k ≠ 0 → s.access n m.forme [⟨dAddr d, 65536 * k, 2⟩] = 0 →
      (x.comb.map (·.line)).Nodup →
      let covered (c : CombLine) : Bool := decide (off ≤ 32 * c.line ∧ 32 * c.line < off + 65536 * k)
      ∃ (y : Station) (rec : Recorder) (fr : Nat), exec (.flush n Obs.quiet) s = .next (s.answers n m y rec fr [] ok) ∧
        y = { p with mem := y.mem, ecc := y.ecc, comb := x.comb.filter (fun c => !covered c), selfRefresh := y.selfRefresh,
                     orders := y.orders } ∧
        (∀ c ∈ x.comb, covered c = true → slotAt y (32 * c.line) = Slot.add c.fmt (slotAt x (32 * c.line)) c.slot) ∧
        ∀ b, (∀ c ∈ x.comb, covered c = true → b < 32 * c.line ∨ 32 * c.line + 32 ≤ b) → y.mem.read b = x.mem.read b)

/-- CTX_ALLOC of a free region makes the lowest entry that is not LIVE describe it and gives its handle, CTX_RESOLVE gives a live entry's
base, length, generation, last writer and forme, and CTX_FREE ends it and advances its generation.  Ordered replay applies the next held
contribution, takes it off the list and answers it (R336-R338, R345).

Under these premises each of ctxAlloc, ctxResolve, ctxFree and orderedReplayApply answers a next state. -/
def Obligations.StationContexts : Prop :=
  (∀ (s : State) (n i : Nat) (m : Msg),
    let x := s.station n
    let p := x.pop m
    let d := m.desc
    let ok : Status := Status.of 0
    let c := Map.get Ctx.init x.ctx i
    s.phys.stacked = true → x.sound → m.len = 0 → dLen d = 0 → c.cw ≠ .poison →
    (s.serves n 8 m →
      let base := dAddr d
      let len := 32 * dArg d
      s.misplaced n ⟨base, len, 1⟩ = none → base % 32 = 0 → 0 < len → base % 2 ^ 33 + len ≤ dramEnd → s.nearAdmits m.forme base len 1 = true →
      (∀ e ∈ x.ctx, e.2.live = true → e.2.base + e.2.length ≤ base ∨ base + len ≤ e.2.base) →
      i < 1024 → c.live = false → (∀ j < i, (Map.get Ctx.init x.ctx j).live = true) → ∃ y : Station,
        exec (.ctxAlloc n Obs.quiet) s = .next (s.answers n m y s.recorder s.free [] { ok with v1 := ctxHandle n i c.generation }) ∧
        y = { p with ctx := y.ctx } ∧ ∀ j, Map.get Ctx.init y.ctx j = if j = i
          then { c with base := base, length := len, forme := m.forme, live := true, writer := none } else Map.get Ctx.init x.ctx j) ∧
    (dAddr d = nearAddr n 0 → bits (dArg d) 9 0 = i → bits (dArg d) 18 10 = n → c.live = true → bits (dArg d) 31 19 = c.generation % 2 ^ 13 →
      c.forme = m.forme →
      (s.serves n 9 m → s.nearAdmits m.forme c.base c.length 0 = true → exec (.ctxResolve n Obs.quiet) s
        = .next (s.answers n m p s.recorder s.free [] { ok with
            v1 := c.base, v2 := c.length, v3 := c.generation + 2 ^ 32 * c.writer.getD 0 + 2 ^ 50 * c.forme + 2 ^ 56 })) ∧
      (s.serves n 10 m → s.nearAdmits m.forme c.base c.length 1 = true → ∃ y : Station,
        exec (.ctxFree n Obs.quiet) s = .next (s.answers n m y s.recorder s.free [] ok) ∧ y = { p with ctx := y.ctx } ∧
        ∀ j, Map.get Ctx.init y.ctx j = if j = i then { c with live := false, generation := (c.generation + 1) % 2 ^ 32 }
          else Map.get Ctx.init x.ctx j))) ∧
  ∀ (s : State) (n : Nat),
    let x := s.station n
    (x.dueContrib (s.replayForced n) = none → exec (.orderedReplayApply n) s = .next s) ∧
    ∀ c, x.dueContrib (s.replayForced n) = some c → ∃ t, exec (.orderedReplayApply n) s = .next t ∧ t.cores = s.cores ∧ t.formes = s.formes ∧
      (t.station n).heldContribs = x.heldContribs.erase c ∧
      (∀ r e, x.replay = some r → x.replayNext = none → r.list.find? (fun e => e.isFor c) = some e →
        (t.station n).replay = some { r with list := r.list.erase e }) ∧
      (c.bucket ≠ 0 → (∀ k ∈ x.idem, k.bucket ≠ c.bucket) → x.idem.length < 262144 → (t.station n).idem = x.idem ++ [c.key]) ∧
      ∀ j, j ≠ n → t.station j = s.station j

/-- A patrol scrub corrects every codeword that waits to be corrected and turns every uncorrectable one into poison, and no byte changes;
the station of a dark field goes into self-refresh; the open record of a bucket and step closes; and a request at a station whose clock
exceeds twice an adjoining island clock may be lost or altered, and still changes no core and no other station (R341, R342, R467, R468,
R552; what becomes of that request is log 76, DESIGN CHOICE).

Under these premises each of stationRead, stationWrite, gather, scatter, accum, convert, stationUpdate, ctxAlloc, ctxResolve, ctxFree,
flush, patrolScrub, selfRefreshEntry and accumOrderRecordClose answers a next state. -/
def Obligations.StationUpkeep : Prop :=
  ∀ (s : State) (n : Nat),
    let x := s.station n
    (s.stationPresent n = true → ∃ t, exec (.patrolScrub n Obs.quiet) s = .next t ∧ (t.station n).mem = x.mem ∧
      (t.station n).ctx = x.ctx ∧ t.cores = s.cores ∧ t.formes = s.formes ∧ (∀ j, j ≠ n → t.station j = s.station j) ∧
      ∀ k, Map.get Cw.clean (t.station n).ecc k = match Map.get Cw.clean x.ecc k with
        | .correctable => .clean
        | .uncorrectable => .poison
        | w => w) ∧
    (s.stationPresent n = false → exec (.patrolScrub n Obs.quiet) s = .next s) ∧
    (s.phys.stacked = true → s.stationPresent n = true → (s.field (n / 8)).dark = true →
      exec (.selfRefreshEntry n) s = .next (s.setStation n { x with selfRefresh := true })) ∧
    (∀ bucket step : Nat, ∃ (y : Station) (rec : Recorder) (fr : Nat),
      exec (.accumOrderRecordClose n bucket step) s = .next { s.setStation n y with recorder := rec, free := fr } ∧
      y = { x with orders := x.orders.map (fun r => if r.bucket = bucket ∧ r.step = step ∧ r.entries ≠ [] then r.closed else r) }) ∧
    ∀ m, x.next = some m → m.typ = MT.stationOp → s.ratioBroken n = true →
      ∀ i ∈ ([.stationRead n Obs.quiet, .stationWrite n Obs.quiet, .gather n Obs.quiet, .scatter n Obs.quiet, .accum n Obs.quiet,
        .convert n Obs.quiet, .stationUpdate n Obs.quiet, .ctxAlloc n Obs.quiet, .ctxResolve n Obs.quiet, .ctxFree n Obs.quiet,
        .flush n Obs.quiet] : List Instr), ∃ t, exec i s = .next t ∧ t.cores = s.cores ∧ ∀ j, j ≠ n → t.station j = s.station j

/-! ### Split commands and contexts -/

/-- A split command with a bad table completes and does nothing else; with a good one it stays outstanding with its parts as the table
gives them, LOAD_TENSOR, READ_TENSOR, UPDATE and ACCUMULATE_OUT to the near tier for their stations to do behind what waits there, STREAM_LAYER with one READ_REQ
on its port, ACCUMULATE_OUT from cores until its slots have come.  RESEND_PARTS takes up the failed parts that it names of a command that
completed with PARTIAL (R319-R321, R371, R376, R382, R435-R437).

Under these premises each of loadTensor, readTensor, streamLayer, accumulateOut, updateCommand and resendParts answers a next state. -/
def Obligations.SplitCommands : Prop :=
  ∀ (s : State) (r : Nat) (c : Cmd),
    let a := bytesAt c.entry 16 8
    let n := bytesAt c.entry 24 1
    let tab := (List.range n).map (fun i => s.hostRead (a + 32 * i) 32)
    let good : Prop := a % 32 = 0 ∧ 1 ≤ n ∧ n ≤ 64 ∧ s.hostAdmits r a (32 * n) 0 = true
    let rest (u : State) : Prop := u.stations = s.stations ∧ u.cores = s.cores ∧ u.formes = s.formes
    let ends (i : Instr) : Prop := ∃ u, exec i s = .next u ∧ u.isDone r c.sq ∧ rest u ∧ u.fports = s.fports
    let bad (i : Instr) (target : Nat) : Prop :=
      (¬ good → ends i) ∧ (good → badParts c.opcode target tab ≠ none → ends i)
    let stays (i : Instr) (u : State) (d : Cmd) : Prop := exec i s = .next u ∧ (u.ring r).cmd c.sq = some d ∧ rest u ∧
      d = { c with parts := d.parts, prf := d.prf, select := d.select, orig := d.orig, entry := d.entry }
    let waits (i : Instr) (target : Nat) : Prop := good → badParts c.opcode target tab = none →
      ∃ (u : State) (d : Cmd), stays i u d ∧ u.fports = s.fports ∧ d.select = c.opcode ∧
        d.parts.map (fun x => { x with before := [] }) = tab.map Part.fresh
    (s.starts r 0x1002 c → bad (.loadTensor r) 0 ∧ waits (.loadTensor r) 0) ∧
    (s.starts r 0x1003 c → bad (.readTensor r) 0 ∧ waits (.readTensor r) 0) ∧
    (s.starts r 0x1008 c → bad (.updateCommand r) 0 ∧ waits (.updateCommand r) 0) ∧
    (s.starts r 0x1007 c → bytesAt c.entry 25 1 = 1 → bad (.accumulateOut r) 1 ∧ waits (.accumulateOut r) 1) ∧
    (s.starts r 0x1007 c → bytesAt c.entry 25 1 = 0 → bad (.accumulateOut r) 0 ∧ ∀ b, tab = [b] →
      good → badParts c.opcode 0 tab = none → s.portRefuses r (bytesAt b 0 1) = none → bytesAt b 1 1 = 0 → 0 < bytesAt b 16 8 →
      ∃ (u : State) (d : Cmd), stays (.accumulateOut r) u d ∧ u.fports = s.fports ∧ d.parts = [Part.fresh b]) ∧
    (s.starts r 0x1004 c → bad (.streamLayer r) 0 ∧ ∀ b, tab = [b] → good → badParts c.opcode 0 tab = none →
      let p := bytesAt b 0 1
      (s.portRefuses r p = none → routeOk (bytesAt b 16 8) = true → ∃ (u : State) (d : Cmd) (y : FPort) (t : Txn) (w : TxFrame),
        stays (.streamLayer r) u d ∧ d.parts = [Part.fresh b] ∧ (∀ q, q ≠ p → u.fport q = s.fport q) ∧ u.fport p = y ∧
        y = { s.fport p with txns := (s.fport p).txns ++ [t], waiting := (s.fport p).waiting ++ [w], reqNext := y.reqNext } ∧
        t.kind = 1 ∧ t.part = some ⟨r, c.sq, 0⟩ ∧ t.total = bytesAt b 4 4 ∧ t.next = 0 ∧ w.txn = t.req ∧ w.frame.typ = 2 ∧
        w.frame.req = t.req ∧ bytesAt w.frame.bodyBytes 0 8 = bytesAt b 8 8 ∧ bytesAt w.frame.bodyBytes 8 4 = bytesAt b 4 4) ∧
      (s.portRefuses r p = none → routeOk (bytesAt b 16 8) = false → ends (.streamLayer r)) ∧
      (s.portRefuses r p ≠ none → ends (.streamLayer r))) ∧
    (s.starts r 0x100B c →
      let mask := bytesAt c.entry 24 8
      ((s.ring r).partialOf (bytesAt c.entry 16 4) = none → ends (.resendParts r)) ∧
      ∀ p, (s.ring r).partialOf (bytesAt c.entry 16 4) = some p →
        let failed (i : Nat) : Prop := ∃ x, p.parts[i]? = some x ∧ x.done ≠ some 0
        ((mask = 0 ∨ ∃ i < 64, mask.testBit i = true ∧ ¬ failed i) → ends (.resendParts r)) ∧
        (mask ≠ 0 → (∀ i < 64, mask.testBit i = true → failed i) → (p.opcode = 0x1002 ∨ p.opcode = 0x1003 ∨ p.opcode = 0x1008) →
          ∃ (u : State) (d : Cmd), stays (.resendParts r) u d ∧ d.select = p.opcode ∧ d.orig = some p.root ∧
            d.parts.length = p.parts.length ∧
            ∀ (i : Nat) (x : Part), p.parts[i]? = some x → ∃ l : List Msg,
              d.parts[i]? = some { x.resent p.opcode (mask.testBit i) with before := l }))

/-- A part of a station command whose turn has come, while the proof recorder has room, does its work and ends: LOAD_TENSOR puts the host's slots into station memory with their poison,
READ_TENSOR stores station lines in host memory, UPDATE runs its recipe, ACCUMULATE_OUT adds under its key; a refused one ends with its
status, and one whose ring's bay has no link with LINK_DOWN (R319, R321, R390, R391; that the effects come with the completion is the
model's choice).

Under these premises partCompletion answers a next state. -/
def Obligations.PartsAtStations : Prop :=
  ∀ (s₀ : State) (r sq part : Nat) (stores : List HostStore) (c : Cmd) (x : Part),
    let s := s₀.hostStores stores
    let q : PartRef := ⟨r, sq, part⟩
    let exe := exec (.partCompletion r sq part stores) s₀
    let b := x.desc
    (s.ring r).cmd sq = some c → c.parts[part]? = some x → x.done = none → c.usesPorts = false → x.sentAll = false →
    s.partTurn c x = true → s.proofFull = false →
    let frame (u : State) (n : Nat) : Prop :=
      u.cores = s.cores ∧ u.formes = s.formes ∧ u.fports = s.fports ∧ ∀ j, j ≠ n → u.station j = s.station j
    (s.ringLink r = false → c.select ≠ 0x1008 → ∃ u, exe = .next u ∧ u.partEnds q 0x09 ∧ u.stations = s.stations) ∧
    (s.ringLink r = true → c.select = 0x1002 →
      let host := bytesAt b 0 8
      let near := bytesAt b 8 8
      let len := bytesAt b 16 8
      let n := near / 2 ^ 33
      let off := near % 2 ^ 33
      (s.hostAdmits r host len 0 = false → ∃ u, exe = .next u ∧ u.partEnds q 0x0C ∧ u.stations = s.stations) ∧
      (s.hostAdmits r host len 0 = true → n < 448 → s.access n r [⟨near, len, 1⟩] = 0 → near % 32 = 0 → ∃ u, exe = .next u ∧ frame u n ∧
        u.partEnds q 0 ∧
        (∀ i < len / 32, ∀ v, (s.hostSlots host (len / 32))[i]? = some v → ofLe ((u.station n).mem.readN (off + 32 * i) 32) = v.data.toNat ∧
          Map.get Cw.clean (u.station n).ecc (off / 16 + 2 * i) = v.lo ∧ Map.get Cw.clean (u.station n).ecc (off / 16 + 2 * i + 1) = v.hi) ∧
        ∀ a, (a < off ∨ off + 32 * (len / 32) ≤ a) → (u.station n).mem.read a = (s.station n).mem.read a)) ∧
    (s.ringLink r = true → c.select = 0x1003 →
      let host := bytesAt b 0 8
      let near := bytesAt b 8 8
      let len := bytesAt b 16 8
      let n := near / 2 ^ 33
      let off := near % 2 ^ 33
      s.hostAdmits r host len 1 = true → n < 448 → s.access n r [⟨near, len, 0⟩] = 0 → (s.station n).sound → (s.station n).comb = [] →
      (∃ j y, j ≠ part ∧ c.parts[j]? = some y ∧ y.done = none) → ∃ u, exe = .next u ∧ frame u n ∧ u.partEnds q 0 ∧
        (u.station n).mem = (s.station n).mem ∧
        (∀ i < len / 32 * 32, u.hostByte (host + i) = (s.station n).mem.read (off + i)) ∧
        ∀ a, (a < host ∨ host + len / 32 * 32 ≤ a) → u.hostByte a = s.hostByte a) ∧
    (c.select = 0x1008 →
      let near := bytesAt b 0 8
      let n := near / 2 ^ 33
      n < 448 →
      let w := (⟨s, n, some r, false⟩ : Sta).update r near
      ∃ u, exe = .next u ∧ u.stations = w.2.2.s.stations ∧ u.partEnds q w.1) ∧
    (s.ringLink r = true → c.select = 0x1007 →
      let host := bytesAt b 16 8
      let near := bytesAt b 24 8
      let n := near / 2 ^ 33
      let k : Contrib := {
        forme := r, bucket := bytesAt b 4 4, step := bytesAt b 2 2, contributor := 0x80000 + 64 * (s.ring r).bayOf + part,
        writer := 0x3FFFF, fmt := bytesAt b 0 1, offset := near % 2 ^ 33, slots := s.hostSlots host (bytesAt b 8 8 / 32), reply := none,
        part := some q }
      s.hostAdmits r host (bytesAt b 8 8) 0 = true → n < 448 → s.access n r [⟨near, bytesAt b 8 8, 2⟩] = 0 → (s.station n).replay = none →
      let w := (⟨s, n, some r, false⟩ : Sta).accumulate k
      ∃ u, exe = .next u ∧ u.stations = w.2.2.s.stations ∧ u.partEnds q w.1)

/-- CONTEXT_ALLOC makes the lowest free entry of its station describe the region and completes with its handle, and CONTEXT_FREE frees
the entry that a handle of the forme names; nothing else of the module changes but the ring that completes.  While VC1 requests wait at
the station either takes its place behind them and stays outstanding (R319, R337, R338).

Under these premises each of contextAlloc and contextFree answers a next state. -/
def Obligations.ContextCommands : Prop :=
  ∀ (s : State) (r i : Nat) (c : Cmd),
    let done (v : Nat) : Compl := { status := 0x00, detail := 0, mask := 0, value := v }
    let queued (j : Instr) (n op : Nat) : Prop := (s.station n).busy1 = true → ∃ m : Msg,
      exec j s = .next (((s.taken r c).queueHost n m).writeConsumer r) ∧ m.typ = MT.stationOp ∧ m.vc = 1 ∧ m.forme = r ∧ m.fromHost = true ∧
        m.dest = n ∧ m.tag = c.sq ∧ dOp m.desc = op
    (s.starts r 0x1009 c → s.phys.stacked = true →
      let base := bytesAt c.entry 16 8
      let len := bytesAt c.entry 24 8
      let n := base / 2 ^ 33
      let e := Map.get Ctx.init (s.station n).ctx i
      n < 448 → s.stationPresent n = true → s.nearTesting (n / 8) = false → len % 32 = 0 → queued (.contextAlloc r) n 8 ∧
      ((s.station n).busy1 = false → (s.station n).sound → e.cw ≠ .poison → 0 < len → base % 32 = 0 →
      base % 2 ^ 33 + len ≤ dramEnd → s.nearAdmits r base len 1 = true →
      (∀ e ∈ (s.station n).ctx, e.2.live = true → e.2.base + e.2.length ≤ base ∨ base + len ≤ e.2.base) →
      i < 1024 → e.live = false → (∀ j < i, (Map.get Ctx.init (s.station n).ctx j).live = true) → ∃ y : Station,
        exec (.contextAlloc r) s = .next (((s.taken r c).setStation n y).finish r c (done (ctxHandle n i e.generation))) ∧
        y = { s.station n with ctx := y.ctx } ∧ ∀ j, Map.get Ctx.init y.ctx j = if j = i
          then { e with base := base, length := len, forme := r, live := true, writer := none }
          else Map.get Ctx.init (s.station n).ctx j)) ∧
    (s.starts r 0x100A c → s.phys.stacked = true →
      let h := bytesAt c.entry 16 4
      let n := bits h 18 10
      let e := Map.get Ctx.init (s.station n).ctx i
      n < 448 → s.stationPresent n = true → s.nearTesting (n / 8) = false → queued (.contextFree r) n 10 ∧
      ((s.station n).busy1 = false → (s.station n).sound → e.cw ≠ .poison → bits h 9 0 = i → e.live = true →
      bits h 31 19 = e.generation % 2 ^ 13 → e.forme = r → s.nearAdmits r e.base e.length 1 = true → ∃ y : Station,
        exec (.contextFree r) s = .next (((s.taken r c).setStation n y).finish r c (done 0)) ∧
        y = { s.station n with ctx := y.ctx } ∧ ∀ j, Map.get Ctx.init y.ctx j = if j = i
          then { e with live := false, generation := (e.generation + 1) % 2 ^ 32 } else Map.get Ctx.init (s.station n).ctx j))

/-! ### Feeder ports -/

/-- A core's READ at an UP port that is bound to its forme becomes a READ_REQ of its own, its WRITE and GRAD open or join the open frame
of their type; a frame closes into a transaction of the session it opened in and waits for credit, and the port sends the first waiting
frame that credit covers under the next sequence number, to the peer's address.  Without a link a request waits while the hold runs and is
answered LINK_DOWN when it does not, when it is malformed BADARG, of another forme BADSTATE (R348, R353, R354, R358, R363, R365, R367-R370,
R374; log 24, DEDUCED).

Under these premises each of portRead, portWrite, gradOp, frameCloseTimeout and frameTransmit answers a next state. -/
def Obligations.PortRequests : Prop :=
  ∀ (s : State) (p : Nat),
    let x := s.fport p
    (∀ (m : Msg) (op : Nat) (i : Instr), (op, i) ∈ ([(1, .portRead p), (2, .portWrite p), (3, .gradOp p)] : List (Nat × Instr)) →
      x.ops.find? (fun m => m.typ == MT.portOp) = some m → dOp m.desc = op →
      let answered (st : Nat) : Prop := exec i s = .next ((s.setFport p { x with ops := x.ops.erase m }).portAnswer p m.reply [] st)
      (x.link ≠ 3 → x.hold = true → exec i s = .next s) ∧ (x.link ≠ 3 → x.hold = false → answered 0x09) ∧
      (x.link = 3 → portOpOk m = false → answered 0x03) ∧
      (x.link = 3 → portOpOk m = true → x.bound.map (·.forme) ≠ some m.forme → answered 0x02)) ∧
    (∀ (m : Msg) (b : Binding),
      let d := m.desc
      let z := { x with ops := x.ops.erase m }
      (s.portServes p 1 m b → ∃ (y : FPort) (t : Txn) (w : TxFrame), exec (.portRead p) s = .next (s.setFport p y) ∧
        y = { z with txns := z.txns ++ [t], waiting := z.waiting ++ [w], reqNext := y.reqNext } ∧ t.kind = 0 ∧ t.forme = m.forme ∧
        t.replies = [m.reply] ∧ t.total = dLen d ∧ w.txn = t.req ∧ w.frame.typ = 2 ∧ w.frame.session = b.session ∧ w.frame.req = t.req ∧
        bytesAt w.frame.bodyBytes 0 8 = dAddr d ∧ bytesAt w.frame.bodyBytes 8 4 = dLen d) ∧
      (s.portServes p 2 m b →
        let o : OpenFrame := { grad := false, forme := m.forme, session := b.session, bucket := 0, step := 0, fmt := 0, contributor := 0,
                               copy := 0, start := dAddr d, slots := m.slots, replies := [m.reply], parts := [] }
        let goes (w : OpenFrame) : Prop := ∃ rec : Recorder,
          exec (.portWrite p) s = .next { s.setFport p { z with openWrite := some w } with recorder := rec }
        (x.openWrite = none → m.slots.length < x.room → goes o) ∧
        ∀ w, x.openWrite = some w → w.joins o x.room = true → w.slots.length + m.slots.length < x.room →
          goes { w with slots := w.slots ++ m.slots, replies := w.replies ++ [m.reply] }) ∧
      (s.portServes p 3 m b → s.portParts p = [] →
        let st := s.stereoOf m.forme (bits (dArg d) 23 0) b
        let o : OpenFrame := { grad := true, forme := m.forme, session := b.session, bucket := bits (dArg d) 23 0, step := m.tag,
                               fmt := bits (dArg d) 25 24, contributor := st.1, copy := st.2, start := dAddr d, slots := m.slots,
                               replies := [m.reply], parts := [] }
        let goes (w : OpenFrame) : Prop := ∃ rec : Recorder,
          exec (.gradOp p) s = .next { s.setFport p { z with openGrad := some w } with recorder := rec }
        (x.openGrad = none → m.slots.length < x.room → goes o) ∧
        ∀ w, x.openGrad = some w → w.joins o x.room = true → w.slots.length + m.slots.length < x.room →
          goes { w with slots := w.slots ++ m.slots, replies := w.replies ++ [m.reply] })) ∧
    (∀ g : Bool,
      let cur := if g then x.openGrad else x.openWrite
      let z := if g then { x with openGrad := none } else { x with openWrite := none }
      (cur = none → exec (.frameCloseTimeout p g) s = .next s) ∧
      ∀ o, cur = some o → ∃ (y : FPort) (t : Txn) (w : TxFrame), exec (.frameCloseTimeout p g) s = .next (s.setFport p y) ∧
        y = { z with txns := z.txns ++ [t], waiting := z.waiting ++ [w], reqNext := y.reqNext } ∧ t.kind = (if g then 3 else 2) ∧
        t.replies = o.replies ∧ t.parts = o.parts ∧ w.txn = t.req ∧ w.frame.typ = (if g then 5 else 4) ∧ w.frame.slots = o.slots ∧
        w.frame.session = o.session) ∧
    ((∀ t ∈ x.txns, t.kind ≠ 1) → x.inbox = [] →
      (x.link ≠ 3 → exec (.frameTransmit p) s = .next s) ∧
      ∀ (t : TxFrame) (rest : List TxFrame), x.link = 3 → x.waiting = t :: rest → x.covers t.frame = true → t.frame.psn = false →
        x.retry.length < 32768 → x.retryBytes + 32 + 36 * t.frame.nslots ≤ 2 ^ 20 → ∃ (y : FPort) (f : Frame),
          exec (.frameTransmit p) s = .next (s.setFport p y) ∧ f = { t.frame with seq := x.txNext, sh := f.sh } ∧
          y = { x with sent := x.sent ++ [x.wire { f with ack := (x.rxNext + 65535) % 65536 }], owed := false, unreported := 0,
                       cwDetect := satAdd x.cwDetect (detections t.frame.slots) 32, txNext := (x.txNext + 1) % 65536, waiting := rest, retry := x.retry ++ [{ t with frame := f }],
                       spentRes := y.spentRes, spentShared := y.spentShared, txns := y.txns } ∧
          (f.sh = false ↔ frameCost t.frame.nslots ≤ x.resLeft (frameClass t.frame.typ)))

/-- What an UP port does with frames that pass its checks.  A sequenced frame out of order is discarded with one NAK, a bad one is counted
and fails what it names; in order it is taken and acknowledged, and then: WEIGHT_DATA of the next slots of a stream goes as messages into
the fabric as far as that takes them, the rest waiting in the receive buffer, and counts for the part once it is in; READ_RSP answers its core; SYNC with
RELEASE releases the tree whose epoch is outstanding and another is a protocol error; CANCEL ends what it names; POISON_NOTICE counts.
CREDIT replaces the sender's totals, ACK frees the retry buffer and makes WRITE and GRAD_ACCUM final, NAK sends again from its number, and
HELLO brings the link UP, under another epoch with WSP state reset (R351-R353, R357-R361, R364, R370, R371, R373, R377-R380, R383).

Under these premises each of weightData, readRsp, sync, cancel, wspCredit, ack, nak, hello and poisonNotice answers a next state. -/
def Obligations.WspFrames : Prop :=
  ∀ (s : State) (p : Nat) (f : RxFrame),
    let x := s.fport p
    let g := f.frame
    let b := g.bodyBytes
    let z := x.tookFrame f
    let c := x.counted f
    let inOrder (typ : Nat) : Prop := s.framed p f typ ∧ g.seq = x.rxNext ∧ g.seq < 65536 ∧ x.settled ∧ x.inbox = []
    (∀ (typ : Nat) (i : Instr), (typ, i) ∈ ([(1, .weightData p f), (3, .readRsp p f), (6, .sync p f), (7, .cancel p f),
        (12, .poisonNotice p f)] : List (Nat × Instr)) → s.framed p f typ → s.streamsLive p →
      (g.seq ≠ x.rxNext →
        (x.nakFor = some x.rxNext → exec i s = .next (s.setFport p c)) ∧
        (x.nakFor ≠ some x.rxNext → exec i s
          = .next (s.setFport p { c.send (mkFrame 10 0 0 (le x.rxNext 2) [] true) with nakFor := some x.rxNext }))) ∧
      (inOrder typ → g.frsv ≠ 0 →
        (x.named g = [] → exec i s = .next (s.setFport p { z with protoErr := satAdd x.protoErr 1 32 })) ∧
        ∃ u, exec i s = .next u ∧ (u.fport p).rxNext = z.rxNext ∧
          ∀ t ∈ x.named g, if t.kind = 1 then (u.fport p).isCancelled t.req = true else (u.fport p).txn t.req = none)) ∧
    (∀ (t : Txn) (q : PartRef) (y : Part) (d : Cmd), inOrder 1 → s.streamsLive p → g.rsvOk [(4, 8)] = true → 1 ≤ g.nslots → g.nslots ≤ 256 →
      g.nslots = g.slots.length → routeOk (bytesAt b 12 8) = true → x.isCancelled g.req = false → x.txn g.req = some t → t.kind = 1 →
      t.cancelled = false → bytesAt b 0 4 = t.next → t.next + g.nslots ≤ t.total → (s.field (portField p)).dark = false →
      t.part = some q → s.part q = some y → (s.ring q.ring).cmd q.sq = some d → d.prf = false →
      let msgs := (chunks (bits t.route 44 42 + 1) g.slots.length g.slots).map (streamMsg p t.forme t.route)
      let next (l : List Slot) : List Txn :=
        x.txns.map (fun u => if u.req = t.req then { t with next := t.next + g.nslots, got := t.got ++ l } else u)
      (∃ (j : Nat) (u : State), exec (.weightData p f) s = .next u ∧ j ≤ msgs.length ∧ (u.fport p).rxNext = z.rxNext ∧
        (j = msgs.length → (u.fport p).inbox = []) ∧
        (j < msgs.length → (u.fport p).inbox = [⟨g, msgs.drop j⟩] ∧ (u.fport p).txns = next [] ∧
          ∀ m, msgs[j]? = some m → u.portRoom p m = false)) ∧
      (∀ m l, msgs = m :: l → s.portRoom p m = false →
        exec (.weightData p f) s = .next (s.setFport p { x.tookHeld f with txns := next [], inbox := [⟨g, msgs⟩] })) ∧
      ∀ m, msgs = [m] → s.portRoom p m = true →
        (t.got.length + g.nslots ≠ t.total → exec (.weightData p f) s = .next
          (((s.setFport p { z with txns := next g.slots }).comeIn (s.portEntry p m) (portInput p) m).updPart q
            (fun y => { y with progress := y.progress + g.nslots }))) ∧
        (t.got.length + g.nslots = t.total → ∃ u, exec (.weightData p f) s = .next u ∧ (u.fport p).txn t.req = none ∧
          (y.done = none → u.partEnds q 0))) ∧
    (∀ (t : Txn) (r : Reply), inOrder 3 → g.rsvOk [(8, 12)] = true → 1 ≤ g.nslots → g.nslots ≤ 256 → g.nslots = g.slots.length →
      x.isCancelled g.req = false → x.txn g.req = some t → t.kind = 0 → t.total = g.nslots → t.replies = [r] →
      let m := portReply p r g.slots 0
      let rest := x.txns.filter (fun u => u.req != t.req)
      ∃ (rec : Recorder) (fr : Nat),
        (s.portRoom p m = true → exec (.readRsp p f) s
          = .next (({ s.setFport p { z with txns := rest } with recorder := rec, free := fr }).portAnswer p r g.slots 0)) ∧
        (s.portRoom p m = false → exec (.readRsp p f) s
          = .next { s.setFport p { x.tookHeld f with txns := rest, inbox := [⟨g, [m]⟩] } with recorder := rec, free := fr })) ∧
    (∀ bd : Binding, inOrder 6 → x.bound = some bd → g.rsvOk [(1, 3), (12, 8)] = true → bits (bytesAt b 0 1) 6 5 = 0 →
      bytesAt b 8 4 < 2 ^ 20 → g.nslots = 0 → g.slots = [] →
      let t := bytesAt b 0 1 % 16
      let tr := s.tree bd.forme t
      let mine := bit (bytesAt b 0 1) 7 = true ∧ tr.external = true ∧ tr.port = p ∧ tr.sync = some (bytesAt b 4 4)
      (mine → (s.forme bd.forme).state = 3 → (s.forme bd.forme).layer ≠ some t → (s.forme bd.forme).halt ≠ some t →
        ∃ u, exec (.sync p f) s = .next u ∧ (u.tree bd.forme t).releases = (tr.releases + 1) % 2 ^ 32 ∧
          (u.tree bd.forme t).arrived = tr.arrived.drop (if tr.isOr then 1 else tr.arrived.length) ∧
          (u.fport p).rxNext = z.rxNext) ∧
      (¬ mine → exec (.sync p f) s = .next (s.setFport p { z with protoErr := satAdd x.protoErr 1 32 }))) ∧
    (inOrder 7 → g.rsvOk [(6, 14)] = true → bytesAt b 4 1 < 4 → g.nslots = 0 → g.slots = [] →
      let lo := bytesAt b 0 2
      let hi := bytesAt b 2 2
      (bit (bytesAt b 4 1) 0 = true → exec (.cancel p f) s = .next (s.setFport p { z with
        cancels := x.cancels.filter (fun c => c != (lo, hi))
        txns := x.txns.filter (fun t => !(t.cancelled && (x.inRange lo hi).any (fun u => u.req == t.req))) })) ∧
      (bit (bytesAt b 4 1) 0 = false → ∃ u, exec (.cancel p f) s = .next u ∧
        (∀ t ∈ x.inRange lo hi, t.cancelled = false → t.kind ≤ 3 → (u.fport p).txn t.req = none) ∧
        (bit (bytesAt b 4 1) 1 = true → (u.fport p).waiting = x.waiting) ∧
        (bit (bytesAt b 4 1) 1 = false → ∃ w : TxFrame, (u.fport p).waiting = x.waiting ++ [w] ∧ w.frame.typ = 7 ∧
          bytesAt w.frame.bodyBytes 0 2 = lo ∧ bytesAt w.frame.bodyBytes 2 2 = hi ∧ bytesAt w.frame.bodyBytes 4 1 = 1))) ∧
    (inOrder 12 → g.rsvOk [(6, 14)] = true → g.nslots = 0 → g.slots = [] → ∃ u, exec (.poisonNotice p f) s = .next u ∧
      u.fport p = { z with poisonRx := satAdd x.poisonRx 1 16 } ∧ (∀ q, q ≠ p → u.fport q = s.fport q) ∧ u.cores = s.cores ∧
      u.formes = s.formes ∧ (s.mgmt.started = true → u.mgmt.seqNext = s.mgmt.seqNext + 1)) ∧
    (s.framed p f 8 → ∃ y : FPort, exec (.wspCredit p f) s = .next (s.setFport p y) ∧
      y = { c.freed g.ack with gotRes := y.gotRes, gotShared := bytesAt b 16 4 } ∧ ∀ k < 4, Map.get 1024 y.gotRes k = bytesAt b (4 * k) 4) ∧
    (s.framed p f 9 → ∃ u, exec (.ack p f) s = .next u ∧
      (u.fport p).retry = x.retry.filter (fun t => !ackCovers g.ack t.frame.seq) ∧ (u.fport p).sent = x.sent ∧
      ∀ t ∈ x.txns, ∀ q, (t.kind = 2 ∨ t.kind = 3) → t.seq = some q → ackCovers g.ack q = true → x.pendAcks = [] →
        ackCovers ((x.rxNext + 65535) % 65536) (bytesAt b 0 2) = true → (u.fport p).txn t.req = none) ∧
    (s.framed p f 10 → x.inflight = none →
      let q := bytesAt b 0 2
      let y := { c.freed g.ack with nakRx := satAdd x.nakRx 1 32 }
      let again := y.retry.filter (fun t => !decide (t.frame.seq ≠ q ∧ ackCovers q t.frame.seq))
      (y.retry = [] → exec (.nak p f) s = .next (s.setFport p y)) ∧
      ∀ t rest, y.retry = t :: rest →
        let oldest := ackCovers t.frame.seq q
        (oldest = true → 8 ≤ y.resends → ∃ u, exec (.nak p f) s = .next u ∧
          u.fport p = { y with link := 4, hold := true, losses := satAdd x.losses 1 16 }) ∧
        (oldest = false ∨ y.resends < 8 → ∃ w : FPort, exec (.nak p f) s = .next (s.setFport p w) ∧
          w = { y with resends := y.resends + (if oldest then 1 else 0), retrans := w.retrans, inflight := w.inflight, owed := w.owed,
                       unreported := w.unreported, sent := w.sent } ∧
          w.sent = x.sent ++ again.map (fun t => x.wire { t.frame with ack := (x.rxNext + 65535) % 65536 }))) ∧
    (x.link = 2 → 790 ≤ s.portMHz p → s.macOk p f = true → g.ver = 1 → g.typ = 11 → bytesAt b 12 1 = 1 → 0 < bytesAt b 6 2 →
      bytesAt b 6 2 ≤ 256 → (∀ t ∈ x.txns, t.kind ≠ 4) → ∃ u, exec (.hello p f) s = .next u ∧ (u.fport p).link = 3 ∧
        (u.fport p).hold = false ∧ (u.fport p).peerEpoch = some (bytesAt b 0 4) ∧ (u.fport p).peerMac = f.src ∧
        (u.fport p).peerMax = bytesAt b 6 2 ∧ (u.fport p).peerPool = bytesAt b 8 4 ∧
        (x.peerEpoch = none → u.fport p = { c with
          link := 3, hold := false, peerEpoch := some (bytesAt b 0 4), peerMac := f.src, peerMax := bytesAt b 6 2
          peerPool := bytesAt b 8 4, resends := 0, inflight := none, gotShared := bytesAt b 8 4 }) ∧
        (x.peerEpoch = some (bytesAt b 0 4) → (u.fport p).txNext = x.txNext ∧ (u.fport p).rxNext = x.rxNext ∧
          (u.fport p).retry = x.retry.filter (fun t => !decide (t.frame.seq ≠ bytesAt b 4 2 ∧ ackCovers (bytesAt b 4 2) t.frame.seq))) ∧
        (x.peerEpoch ≠ none → x.peerEpoch ≠ some (bytesAt b 0 4) → (u.fport p).txNext = 0 ∧ (u.fport p).rxNext = 0 ∧
          (u.fport p).retry = [] ∧ (u.fport p).gotShared = bytesAt b 8 4))

/-- The timers and the link of a port: HELLO every period in state HELLO, under a new epoch after a reset of WSP state; an ACK that has been
owed; every unacknowledged frame again after a retransmission timeout, and the link LOST after eight; the receiver's totals again; the end
of the hold with WSP state reset; training again; alignment, while the reference is qualified, from LOST to TRAINING and from TRAINING to
HELLO, and its loss to LOST; and a pluggable module that is accepted trains the port, one that is refused leaves it, and its removal puts
the port OFF (R349, R351-R354, R359, R360, R364, R465; log 26, DEDUCED).

Under these premises each of helloTimer, ackTimer, retransmitTimeout, creditRepeat, holdExpiry, trainingTimeout, pcsAligned,
pcsAlignmentLost, moduleInsert and moduleRemove answers a next state. -/
def Obligations.WspTimers : Prop :=
  ∀ (s : State) (p : Nat),
    let x := s.fport p
    let greets (i : Instr) (l : Nat) : Prop := ∃ (y : FPort) (h : TxWire) (fr : Nat), exec i s = .next { s.setFport p y with free := fr } ∧
      y = { x with link := l, mac := s.portMac p, epoch := y.epoch, fresh := false, sent := x.sent ++ [h], owed := false, unreported := 0 } ∧
      h.dst = 2 ^ 48 - 1 ∧ h.src = s.portMac p ∧ h.ethertype = 0x88B5 ∧ h.bytes = 64 ∧ h.frame.typ = 11 ∧
      bytesAt h.frame.bodyBytes 0 4 = y.epoch % 2 ^ 32 ∧ bytesAt h.frame.bodyBytes 4 2 = x.rxNext % 65536 ∧
      bytesAt h.frame.bodyBytes 6 2 = 256 ∧ bytesAt h.frame.bodyBytes 8 4 = 24576 ∧
      (x.fresh = true → y.epoch ≠ x.epoch) ∧ (x.fresh = false → y.epoch = x.epoch ∧ fr = s.free)
    let reset (i : Instr) (l : Nat) : Prop := ∃ u, exec i s = .next u ∧ (u.fport p).link = l ∧ (u.fport p).hold = false ∧
      (u.fport p).txNext = 0 ∧ (u.fport p).rxNext = 0 ∧ (u.fport p).waiting = [] ∧ (u.fport p).retry = [] ∧ (u.fport p).inbox = [] ∧
      (u.fport p).gotShared = x.peerPool ∧ (∀ t ∈ (u.fport p).txns, t.kind = 4) ∧
      (u.fport p).fresh = true ∧ (u.fport p).openWrite = none ∧ (u.fport p).openGrad = none ∧ (u.fport p).bound = x.bound ∧
      (∀ q, q ≠ p → u.fport q = s.fport q) ∧ u.cores = s.cores ∧ u.formes = s.formes
    let posts (i : Instr) (y : FPort) : Prop := ∃ u, exec i s = .next u ∧ u.fport p = y ∧ (∀ q, q ≠ p → u.fport q = s.fport q) ∧
      u.cores = s.cores ∧ u.formes = s.formes ∧ u.rings = s.rings ∧ (s.mgmt.started = true → u.mgmt.seqNext = s.mgmt.seqNext + 1)
    (x.link = 2 → greets (.helloTimer p) 2) ∧ (x.link ≠ 2 → exec (.helloTimer p) s = .next s) ∧
    (x.inbox = [] →
      (x.link = 3 → x.owed = true → ∃ h : TxWire, exec (.ackTimer p) s
        = .next (s.setFport p { x with sent := x.sent ++ [h], owed := false, unreported := 0 }) ∧ h.dst = x.peerMac ∧ h.frame.typ = 9 ∧
          h.frame.ack = (x.rxNext + 65535) % 65536) ∧
      (x.link ≠ 3 ∨ x.owed = false → exec (.ackTimer p) s = .next s) ∧
      (x.link = 3 → s.proofFull = false → ∃ h : TxWire, exec (.creditRepeat p) s
        = .next (s.setFport p { x with sent := x.sent ++ [h], owed := false, unreported := 0 }) ∧ h.frame.typ = 8 ∧
          (∀ c < 4, bytesAt h.frame.bodyBytes (4 * c) 4 = (1024 + Map.get 0 x.freedRes c) % 2 ^ 32) ∧
          bytesAt h.frame.bodyBytes 16 4 = (24576 + x.freedShared) % 2 ^ 32) ∧
      (x.link ≠ 3 ∨ s.proofFull = true → exec (.creditRepeat p) s = .next s)) ∧
    (∀ t rest, x.link = 3 → x.retry = t :: rest →
      (x.resends < 8 → ∃ y : FPort, exec (.retransmitTimeout p) s = .next (s.setFport p y) ∧ y.resends = x.resends + 1 ∧
        y.retry = x.retry ∧ y.txNext = x.txNext ∧ y.sent = x.sent ++ (x.retry.filter (fun w =>
          !decide (w.frame.seq ≠ t.frame.seq ∧ ackCovers t.frame.seq w.frame.seq))).map (fun w =>
            x.wire { w.frame with ack := (x.rxNext + 65535) % 65536 })) ∧
      (8 ≤ x.resends → posts (.retransmitTimeout p) { x with link := 4, hold := true, losses := satAdd x.losses 1 16 })) ∧
    (x.link ≠ 3 ∨ x.retry = [] → exec (.retransmitTimeout p) s = .next s) ∧
    (x.hold = true → x.link ≠ 3 → reset (.holdExpiry p) (if x.link = 4 then 1 else x.link)) ∧
    (x.hold = false ∨ x.link = 3 → exec (.holdExpiry p) s = .next s) ∧
    (∃ u, exec (.trainingTimeout p) s = .next u ∧ u = { s with fports := u.fports } ∧ ∀ q, u.fport q = s.fport q) ∧
    (s.clocks.pinQualified = true → (x.link = 1 → greets (.pcsAligned p) 2) ∧
      (x.link = 4 → exec (.pcsAligned p) s = .next (s.setFport p { x with link := 1 }))) ∧
    (s.clocks.pinQualified = false ∨ (x.link ≠ 1 ∧ x.link ≠ 4) → exec (.pcsAligned p) s = .next s) ∧
    (x.link = 3 → posts (.pcsAlignmentLost p) { x with link := 4, hold := true, losses := satAdd x.losses 1 16 }) ∧
    (x.link ≠ 3 → exec (.pcsAlignmentLost p) s = .next s) ∧
    (∀ (taui8 : Bool) (watts : Nat),
      (x.seated = true ∨ s.portPresent p = false → exec (.moduleInsert p taui8 watts) s = .next s) ∧
      (x.seated = false → s.portPresent p = true → taui8 = true → watts ≤ 28 →
        exec (.moduleInsert p taui8 watts) s = .next (s.setFport p { x with seated := true, accepted := true, link := 1 })) ∧
      (x.seated = false → s.portPresent p = true → (taui8 = false ∨ 28 < watts) →
        posts (.moduleInsert p taui8 watts) { x with seated := true, accepted := false })) ∧
    (x.link ≠ 0 → posts (.moduleRemove p) { x with link := 0, hold := x.hold || decide (x.link = 3), seated := false, accepted := false }) ∧
    (x.link = 0 → exec (.moduleRemove p) s = .next (s.setFport p { x with seated := false, accepted := false }))

/-! ### Host bays -/

/-- A bay serves the oldest request on VC1 before the oldest on VC0, but for a REPORT that waits.  It answers a core's READ with host memory,
unless the proof recorder is full, and does its WRITE, under the windows of the forme; REPORT appends to the record of its core and port,
and closes it when MORE is 0; a refused request is DENIED, BADARG, BADSTATE or LINK_DOWN.  A link that goes down is posted and holds its
rings; one that trains sends what they held (R386, R391, R407, R447, R448, R450, R452; logs 46, 47 and 102).

Under these premises each of hostRead, hostWrite, reportOp, hostLinkDown and hostLinkRetrain answers a next state. -/
def Obligations.HostBays : Prop :=
  ∀ (s₀ : State) (b : Nat) (stores : List HostStore) (m : Msg), s₀.NoneEnded →
    let s := s₀.hostStores stores
    let x := s.bay b
    let d := m.desc
    let a := hostAddr d
    let z := { x with ops := x.ops.erase m }
    (∀ (op : Nat) (i : Instr), (op, i) ∈ ([(1, .hostRead b []), (2, .hostWrite b), (3, .reportOp b)] : List (Nat × Instr)) →
      (s.bayNext b = none → exec i s = .next s) ∧
      (s.bayNext b = some m → dOp d = op →
        (x.width = 0 → exec i s = .next ((s.setBay b z).bayAnswer b m.reply [] 0x09 0)) ∧
        (x.width ≠ 0 → bayOpOk m = false → exec i s = .next ((s.setBay b z).bayAnswer b m.reply [] 0x03 0)))) ∧
    (s.bayServes b 1 m →
      (s.proofFull = true → exec (.hostRead b stores) s₀ = .next s) ∧
      (s.proofFull = false → s.hostAdmits m.forme a (32 * dLen d) 0 = true → ∃ (rec : Recorder) (fr : Nat), exec (.hostRead b stores) s₀
        = .next (({ s.setBay b z with recorder := rec, free := fr }).bayAnswer b m.reply (s.hostSlots a (dLen d)) 0 0)) ∧
      (s.proofFull = false → s.hostAdmits m.forme a (32 * dLen d) 0 = false → exec (.hostRead b stores) s₀
        = .next ((s.setBay b z).bayAnswer b m.reply [] 0x0C 0))) ∧
    (s.bayServes b 2 m →
      (s.hostAdmits m.forme a (32 * dLen d) 1 = true → ∃ rec : Recorder, exec (.hostWrite b) s
        = .next ((({ s.setBay b z with recorder := rec }).hostPutSlots a m.slots).bayAnswer b m.reply [] 0 0)) ∧
      (s.hostAdmits m.forme a (32 * dLen d) 1 = false → exec (.hostWrite b) s = .next ((s.setBay b z).bayAnswer b m.reply [] 0x0C 0))) ∧
    (s.bayServes b 3 m →
      let rest := x.asms.filter (fun e => !e.isFor m)
      let l := (match x.asms.find? (fun e => e.isFor m) with
        | some e => e.slots
        | none => []) ++ m.slots
      let refused (st : Nat) : Prop :=
        exec (.reportOp b) s = .next ((s.setBay b { z with asms := rest }).bayAnswer b m.reply [] st 0)
      ((s.ring 73).state ≠ 1 → refused 0x02) ∧ ((s.ring 73).state = 1 → 63 < l.length → refused 0x03) ∧
      ((s.ring 73).state = 1 → l.length ≤ 63 → ∃ rec : Recorder,
        (dArg d = 1 → exec (.reportOp b) s = .next
          (({ s.setBay b { z with asms := rest ++ [(⟨m.src, m.sport, m.forme, l⟩ : Assembly)] } with recorder := rec }).bayAnswer b m.reply [] 0 0)) ∧
        (dArg d = 0 → exec (.reportOp b) s = .next { s.setBay b { z with asms := rest } with
          recorder := rec, reports := s.reports ++ [(⟨m.forme, m.src, m.sport, m.tag, l, some m.reply, b⟩ : Report)] }))) ∧
    (x.width ≠ 0 → ∃ u, exec (.hostLinkDown b) s = .next u ∧ u.bay b = { x with width := 0 } ∧ (∀ q, q ≠ b → u.bay q = s.bay q) ∧
      u.regs.flags.getLsbD 2 = true ∧ u.rings = s.rings ∧ u.cores = s.cores ∧ u.formes = s.formes) ∧
    (x.width = 0 → exec (.hostLinkDown b) s = .next s) ∧
    ∀ w : Nat,
      let can := x.die = true ∧ 1 ≤ w ∧ w ≤ 3 ∧ s.power.resetLow = false
      (can → ∃ u, exec (.hostLinkRetrain b w) s = .next u ∧ u.bay b = { x with width := w } ∧ (∀ q, q ≠ b → u.bay q = s.bay q) ∧
        (x.width ≠ w → u.regs.flags.getLsbD 2 = true) ∧
        (∀ r < 75, (s.ring r).bayOf = b → (u.ring r).held = [] ∧ (u.ring r).heldIrq = 0) ∧ u.cores = s.cores ∧ u.formes = s.formes) ∧
      (¬ can → exec (.hostLinkRetrain b w) s = .next s)

/-! ### BAR0 -/

/-- What a BAR0 access does while the setup bus and the management processor keep to their clock ratio.  An access that does not reach the
device does nothing, and neither does a good read; one that ends in a completer abort, a read or a write, and a write that a register
ignores, only set REGERR with their bay and offset.  HELPER_CLK_EN takes the bits of helpers that are present and not locked,
MAILBOX_BOOT starts the boot in AWAIT_HOST alone, EN starts a ring whose set-up is good and puts a refusal in err, clearing EN stops it,
RING_IRQ resets the moderation counter, CONTAINMENT_DEFAULT, POWER_CAP and STATUS_RESET take legal values, STATUS_FLAGS is cleared by
ones, and a plain register takes its value (R9-R11, R392-R394, R397, R401-R408, R453; log 50, DEDUCED).

Under these premises each of helperClkEnWrite, mailboxBootWrite, ringEnable, ringDisable, ringIrqWrite, containmentDefaultWrite,
powerCapWrite, statusResetWrite, w1cFlagWrite and registerWrite answers a next state. -/
def Obligations.RegisterWrites : Prop :=
  ∀ (s : State) (a : Bar0),
    let w : Word := BitVec.ofNat 32 a.value
    let rows : List Instr := [.helperClkEnWrite a, .mailboxBootWrite a [], .ringEnable a, .ringDisable a, .ringIrqWrite a,
      .containmentDefaultWrite a, .powerCapWrite a, .statusResetWrite a, .w1cFlagWrite a, .registerWrite a]
    let notes (t u : State) : Prop :=
      u = { t with regs := { t.regs with flags := u.regs.flags, flagsCnt := u.regs.flagsCnt, regErr := u.regs.regErr } } ∧
        u.regs.flags.getLsbD 0 = true ∧ u.regs.regErr.toNat = a.off % 2 ^ 20 + 2 ^ 20 * (a.bay % 2)
    let ignored (i : Instr) : Prop := ∃ u, exec i s = .next u ∧ notes s u
    let reaches := s.barReaches a = true ∧ s.busRatioBroken = false
    (s.barReaches a = false → ∀ i ∈ rows, exec i s = .next s) ∧
    (reaches → s.barAborts a = true → ∀ i ∈ rows, ignored i) ∧
    (reaches → s.barAborts a = false → a.read = true → ∀ i ∈ rows, exec i s = .next s) ∧
    (reaches → s.barAborts a = false → a.read = false → a.size = 4 → a.value < 2 ^ 32 →
      (a.off = 0x1000 → (s.regs.devState = 0 → ignored (.helperClkEnWrite a)) ∧
        (s.regs.devState ≠ 0 → ∃ u, exec (.helperClkEnWrite a) s = .next u ∧ u.cores = s.cores ∧ u.rings = s.rings ∧
          ∀ i < 15, u.regs.helperEn.getLsbD i = if s.regs.helperPresent.getLsbD i = true ∧ s.regs.helperLock.getLsbD i = false
            then w.getLsbD i else s.regs.helperEn.getLsbD i)) ∧
      (∀ r < 72, a.off = 0x3000 + 64 * r + 32 →
        let g := s.ring r
        (g.cfg.getLsbD 0 = false → g.state = 0 → w.getLsbD 0 = true →
          let t := s.updRing r (fun g => { g with cfg := w &&& 0x2FF00 })
          (t.enableRing r = none → ∃ u, exec (.ringEnable a) s = .next u ∧ (u.ring r).state = 1 ∧ (u.ring r).cfg = w &&& 0x2FF00 ||| 1 ∧
            (u.ring r).produced = 0 ∧ (u.ring r).cmds = [] ∧ ∀ q, q ≠ r → u.ring q = s.ring q) ∧
          ∀ e, t.enableRing r = some e → ∃ u, exec (.ringEnable a) s = .next u ∧ notes (t.updRing r (fun g => { g with err := e })) u) ∧
        (g.cfg.getLsbD 0 = true → w.getLsbD 0 = false → w &&& 0x2FF00 = g.cfg &&& 0x2FF00 → s.noFence → s.NoneEnded →
          exec (.ringDisable a) s = .next (s.updRing r (fun g => { g with
            cfg := g.cfg &&& 0xFFFFFFFE, entries := [], fences := [], state := if g.cmds.isEmpty then 0 else 2 })))) ∧
      (∀ r < 72, a.off = 0x3000 + 64 * r + 36 → exec (.ringIrqWrite a) s
        = .next (s.updRing r (fun g => { g with irq := BitVec.ofNat 32 (a.value % 2 ^ 23), modCount := 0 }))) ∧
      (a.off = 0x6000 → exec (.containmentDefaultWrite a) s
        = .next { s with regs := { s.regs with resetDefault := a.value.testBit 0 } }) ∧
      (a.off = 0x6004 → ∀ e, s.enable = some e →
        let good := s.operating = true ∧ 20 ≤ a.value % 128 ∧ a.value % 128 ≤ e.maxCap
        (good → exec (.powerCapWrite a) s = .next { s with regs := { s.regs with powerCap := a.value % 128 } }) ∧
        (¬ good → ignored (.powerCapWrite a))) ∧
      (a.off = 0x7010 → (a.value = 0x52455345 → exec (.statusResetWrite a) s = .next s.rebootDevice) ∧
        (a.value ≠ 0x52455345 → ignored (.statusResetWrite a))) ∧
      (a.off = 0x7000 → exec (.w1cFlagWrite a) s = .next { s with regs := { s.regs with flags := s.regs.flags &&& ~~~w } }) ∧
      (a.off = 0x7004 → exec (.registerWrite a) s = .next { s with regs := { s.regs with flagsCnt := w } }) ∧
      (a.off = 0x2008 → (s.regs.devState = 1 → exec (.registerWrite a) s = .next { s with regs := { s.regs with bootLen := a.value } }) ∧
        (s.regs.devState ≠ 1 → ignored (.registerWrite a)))) ∧
    (reaches → s.barAborts a = false → a.read = false → a.size = 8 → a.value < 2 ^ 64 →
      (a.off = 0x2000 → (s.regs.devState ≠ 1 → ignored (.mailboxBootWrite a [])) ∧
        (s.regs.devState = 1 → ∃ u, exec (.mailboxBootWrite a []) s = .next u ∧ u.regs.bootAddr = a.value ∧ u.regs.bootBay = a.bay ∧
          u.boot.addr = a.value ∧ u.boot.len = s.regs.bootLen ∧ u.hellbox = [] ∧ u.cores = s.cores ∧
          ((u.regs.devState = 2 ∧ u.enable ≠ none) ∨ (u.regs.devState = 1 ∧ u.regs.flags.getLsbD 1 = true)))) ∧
      ∀ r < 72, ∀ o ∈ [0, 8, 16, 24], a.off = 0x3000 + 64 * r + o → (s.ring r).cfg.getLsbD 0 = false → (s.ring r).state = 0 →
        ∃ u, exec (.registerWrite a) s = .next u ∧ u = { s with rings := u.rings, regs := { s.regs with halves := u.regs.halves } } ∧
          (u.ring r).addr o = a.value ∧ (∀ p ∈ [0, 8, 16, 24], p ≠ o → (u.ring r).addr p = (s.ring r).addr p) ∧
          ∀ q, q ≠ r → u.ring q = s.ring q)

/-! ### Power, heat and clocks -/

/-- A governor's evaluation of a field.  At the trip threshold the module trips: FAILED, TRIP_L and no core left; at the dark threshold the
field goes dark and each forme that runs on it faults with THERMAL; at the throttle threshold every cluster falls one thermal step, never
below its floor; and a cool field only has its power step and its allowance set, one step down above its budget and one up at 95 % of it or
less, the power step never above the step that the other limits allow.  A field that has waited 256 evaluations goes dark; the module
governor takes the measured input, divides the cap in watts among the present fields, gives them no more than before while the input is
above the cap, and holds while some field asks more than its budget; a soft start rises by eighths, and a droop stretches the field's clocks until it ends (R471, R472, R474-R478, R480-R486;
the shares of the budgets and the allowance are free, logs 1 and 67, DESIGN CHOICE).

Under these premises each of fieldGovernorEvaluation, pendingDarkLimit, moduleGovernorUpdate, softStartInterval, droopTrip and droopEnd
answers a next state. -/
def Obligations.Governors : Prop :=
  (∀ (s : State) (f : Nat) (m : FieldMeas),
    let t := s.readSensors f m
    let hot := (t.cluster (t.hottest f)).hot
    let l := heatLimits s.phys.stacked
    let x := s.field f
    let exe := exec (.fieldGovernorEvaluation f m) s
    let on := s.awake = true ∧ s.fieldEnabled f = true ∧ s.helperOn 5 = true
    (¬ on → exe = .next s) ∧
    (on → l.trip ≤ hot → ¬ (s.regs.devState = 6 ∧ s.power.heatTrip = true) → ∃ u, exe = .next u ∧ u.regs.devState = 6 ∧
      u.power.tripLatched = true ∧ u.power.tripWait = true ∧ u.cores = [] ∧ u.regs.flags.getLsbD 4 = true) ∧
    (on → l.dark ≤ hot → hot < l.trip → x.dark = false → (∀ e ∈ s.fields, e.1 ≠ f → e.2.pendingDark = false) → ∃ u, exe = .next u ∧ (u.field f).dark = true ∧ (u.field f).powered = false ∧
      (u.field f).testing = 0 ∧ u.mapGen = s.mapGen + 1 ∧ (∀ c, fieldOf c = f → u.core c = Core.init) ∧
      (∀ c, fieldOf c ≠ f → u.core c = s.core c) ∧
      ∀ n ∈ s.formesOn f, (s.forme n).state = 3 → (u.forme n).state = 5 ∧ (u.forme n).status = 0x08) ∧
    (on → l.throttle ≤ hot → hot < l.dark → x.dark = false → x.pendingDark = false → x.hotEvals < 31 →
      ∃ u, exe = .next u ∧ (u.field f).throttled = true ∧ (u.field f).dark = false ∧
        (∀ k ∈ fieldClusters f, u.cluster k = { t.cluster k with
            thermStep := max (t.floorStep k) ((t.cluster k).thermStep - 1), powerStep := (u.cluster k).powerStep, grant := (u.cluster k).grant } ∧
          (x.powered = true → (u.cluster k).powerStep ≤ (u.cluster k).unpowered)) ∧
        ∀ k, k ∉ fieldClusters f → u.cluster k = t.cluster k) ∧
    (on → hot < l.warn - 32 → x.dark = false → x.throttled = false → x.pendingDark = false → x.powered = true → f < 56 → ∃ u,
      exe = .next u ∧ u.field f = { x with warned := false, hotEvals := 0, power := m.power } ∧
      (∀ k ∈ fieldClusters f,
        let y := t.cluster k
        let w := min y.powerStep y.unpowered
        u.cluster k = { y with powerStep := (u.cluster k).powerStep, grant := (u.cluster k).grant } ∧
          1 ≤ (u.cluster k).grant ∧ (u.cluster k).grant ≤ 48 ∧
          (u.cluster k).powerStep = min y.unpowered (if x.budget < m.power then max (t.floorStep k) (w - 1)
            else if m.power * 100 ≤ x.budget * 95 then w + 1 else w)) ∧
      (∀ k, k ∉ fieldClusters f → u.cluster k = t.cluster k) ∧ u.cores = s.cores ∧ u.formes = s.formes)) ∧
  (∀ (s : State) (f : Nat),
    let x := s.field f
    (x.pendingDark = true → (256 ≤ x.waitEvals ∨ s.mayWait f = false) → (∀ e ∈ s.fields, e.1 ≠ f → e.2.pendingDark = false) → ∃ u,
      exec (.pendingDarkLimit f) s = .next u ∧
      (u.field f).dark = true ∧ (u.field f).powered = false ∧ (u.field f).pendingDark = false ∧ u.mapGen = s.mapGen + 1) ∧
    (x.pendingDark = false ∨ (x.waitEvals < 256 ∧ s.mayWait f = true) → exec (.pendingDarkLimit f) s = .next s) ∧
    (x.powered = true → exec (.droopTrip f) s = .next (s.setField f { x with stretched := true })) ∧
    (x.powered = false → exec (.droopTrip f) s = .next s) ∧
    (x.stretched = true → exec (.droopEnd f) s = .next (s.setField f { x with stretched := false })) ∧
    (x.stretched = false → exec (.droopEnd f) s = .next s)) ∧
  (∀ (s : State) (m : PowerMeas),
    let present := (List.range 56).filter s.fieldPresent
    let total (t : State) : Nat := (present.map (fun f => (t.field f).budget)).sum
    (s.awake = true → s.helperOn 5 = true → ∃ u, exec (.moduleGovernorUpdate m) s = .next u ∧ u.regs.powerInput = m.input % 2 ^ 16 ∧
      total u ≤ 100 * s.capInForce ∧ (100 * s.capInForce < 10 * u.regs.powerInput → total u ≤ total s) ∧
      (∀ f < 56, s.fieldPresent f = false → (u.field f).budget = 0) ∧
      (u.power.capHeld = true ↔ ∃ a ∈ m.asks, s.fieldPresent a.1 = true ∧ (u.field a.1).budget < a.2) ∧
      (s.power.capHeld = false → u.power.capHeld = true → u.regs.flags.getLsbD 5 = true) ∧ u.cores = s.cores ∧ u.clusters = s.clusters) ∧
    (¬ (s.awake = true ∧ s.helperOn 5 = true) → exec (.moduleGovernorUpdate m) s = .next s)) ∧
  ∀ (s : State) (k : Nat),
    let x := s.cluster k
    (x.soft = 0 → exec (.softStartInterval k) s = .next s) ∧
    (x.soft ≠ 0 → exec (.softStartInterval k) s = .next (s.setCluster k { x with soft := if x.soft < 8 then x.soft + 1 else 0 }))

/-- The reference and the loops.  A locked loop moves one ladder step toward the step of R459.  An input qualifies only while the reference
reaches it, and one that qualifies or loses its qualification switches the selection; a running cluster without a qualified input coasts at
800 MHz with LOST set and feeds no neighbour any more, and the loss of the pin takes every input and every UP port.  A loop that locks ends coasting, or starts a stopped clock at 800 MHz; one that loses lock coasts and
counts a mismatch; and a station's clock is low while an adjoining cluster coasts (R455-R461, R463-R465, R469, R516, R599).

Under these premises each of clockSlewStep, inputQualified, inputLostQualification, loopLock, loopLockLoss and stationClockFloor answers
a next state. -/
def Obligations.ClockLoops : Prop :=
  (∀ (s : State) (k : Nat),
    let x := s.cluster k
    let runs := x.locked = true ∧ x.ladder ≠ 0 ∧ x.coasting = false
    let coasts (i : Instr) (t : State) : Prop := ∃ u, exec i s = .next u ∧ (u.cluster k).coasting = true ∧ (u.cluster k).refLost = true ∧
      (u.cluster k).locked = false ∧ (u.cluster k).ladder = 8 ∧ u.regs.flags.getLsbD 3 = true ∧
      (∀ j, j ≠ k → u.cluster j = t.cluster j) ∧ u.cores = s.cores ∧ u.formes = s.formes
    (runs → x.ladder < x.target → exec (.clockSlewStep k) s = .next (s.setCluster k { x with ladder := x.ladder + 1 })) ∧
    (runs → x.target < x.ladder → exec (.clockSlewStep k) s = .next (s.setCluster k { x with ladder := x.ladder - 1 })) ∧
    (¬ runs ∨ x.ladder = x.target → exec (.clockSlewStep k) s = .next s) ∧
    (s.power.standby = true → isCluster k = true →
      (s.fed k 0 = true → exec (.inputQualified ⟨2, k, 0⟩) s = .next (s.setCluster k { x with qual0 := true, second := false })) ∧
      (s.fed k 1 = true → exec (.inputQualified ⟨2, k, 1⟩) s = .next (s.setCluster k { x with qual1 := true, second := !x.qual0 })) ∧
      (∀ i < 2, s.fed k i = false → exec (.inputQualified ⟨2, k, i⟩) s = .next s) ∧
      ((∀ j ∈ fieldClusters (clusterField k), ((s.cluster j).qual0 = true → s.fed j 0 = true) ∧ ((s.cluster j).qual1 = true → s.fed j 1 = true)) →
        (x.qual1 = true → exec (.inputLostQualification ⟨2, k, 0⟩) s = .next (s.setCluster k { x with qual0 := false, second := true })) ∧
        (x.qual0 = true → exec (.inputLostQualification ⟨2, k, 1⟩) s = .next (s.setCluster k { x with qual1 := false, second := false }))) ∧
      (x.qual1 = false → x.ladder ≠ 0 → x.coasting = false → ∃ u, exec (.inputLostQualification ⟨2, k, 0⟩) s = .next u ∧
        (u.cluster k).coasting = true ∧ (u.cluster k).refLost = true ∧ (u.cluster k).locked = false ∧ (u.cluster k).ladder = 8 ∧
        u.regs.flags.getLsbD 3 = true ∧ u.cores = s.cores ∧ u.formes = s.formes ∧
        (∀ j, isCluster j = true → (refSource j 0 = some k → (u.cluster j).qual0 = false) ∧ (refSource j 1 = some k → (u.cluster j).qual1 = false)) ∧
        ∀ j, j ∉ fieldClusters (clusterField k) → u.cluster j = s.cluster j)) ∧
    (x.qualified = false → exec (.loopLock k) s = .next s) ∧
    (x.qualified = true → x.coasting = true → ∃ u, exec (.loopLock k) s = .next u ∧ u.cores = s.cores ∧
      u.cluster k = { x with coasting := false, refLost := false, locked := true } ∧ ∀ j, j ≠ k → u.cluster j = s.cluster j) ∧
    (x.qualified = true → x.coasting = false → x.ladder = 0 → s.mayStart k = true → s.regs.devState ≠ 2 → exec (.loopLock k) s
      = .next (s.setCluster k { x with locked := true, ladder := 8, mismatches := 0, winOpen := false })) ∧
    (x.coasting = false → (x.ladder ≠ 0 ∨ s.mayStart k = false) → exec (.loopLock k) s = .next s) ∧
    (x.ladder ≠ 0 → x.coasting = false → x.qualified = true → s.clusterHere k = true → coasts (.loopLockLoss k) s) ∧
    (x.ladder = 0 ∨ x.coasting = true ∨ x.qualified = false ∨ s.clusterHere k = false → exec (.loopLockLoss k) s = .next s)) ∧
  (∀ s : State,
    (s.power.standby = true → exec (.inputQualified ⟨0, 0, 0⟩) s = .next { s with clocks := { s.clocks with pinQualified := true } } ∧
      ∀ j, exec (.inputQualified ⟨1, j, 0⟩) s
          = .next { s with clocks := { s.clocks with repeaters := Map.set false s.clocks.repeaters j true } } ∧
        exec (.inputLostQualification ⟨1, j, 0⟩) s
          = .next { s with clocks := { s.clocks with repeaters := Map.set false s.clocks.repeaters j false } }) ∧
    (s.power.standby = true → s.clocks.pinQualified = true → (s.clusters.map (·.1)).Nodup → ∃ u, exec (.inputLostQualification ⟨0, 0, 0⟩) s = .next u ∧
      u.clocks = { s.clocks with pinQualified := false, repeaters := [] } ∧ (∀ k, (s.cluster k).ladder ≠ 0 → (u.cluster k).coasting = true ∧ (u.cluster k).qualified = false) ∧
      ∀ p < 16, (u.fport p).link = if (s.fport p).link = 3 then 4 else (s.fport p).link) ∧
    (s.power.standby = false → exec (.inputQualified ⟨0, 0, 0⟩) s = .next s ∧ exec (.inputLostQualification ⟨0, 0, 0⟩) s = .next s)) ∧
  ∀ (s : State) (n : Nat),
    let low := (stationClusters n).any (fun k => (s.cluster k).coasting)
    (low = (s.station n).clockLow → exec (.stationClockFloor n) s = .next s) ∧
    (low ≠ (s.station n).clockLow → exec (.stationClockFloor n) s = .next (s.setStation n { s.station n with clockLow := low }))

/-! ### Ageing, records and the management port -/

/-- A cluster without a baseline takes its first ratio as one, a change of the plan (log 111, DEDUCED); a later index that has moved by 500
ppm or less changes no plan, and one that has moved by more makes a new one.  The end of a correction window posts its count when it was
more than one.  A checkpoint posts the chain and asks for its signature, or waits for the one that is pending, after the correction of the
management processor's RAM that it met (log 108, DESIGN CHOICE); a finished signature ends the oldest operation: a document is stored and
its command completes with its length (R41, R522, R523, R527, R535, R541, R542, R575; logs 7 and 48).

Under these premises each of ageingMeasurement, correctedWindowEnd, checkpoint and signatureComplete answers a next state. -/
def Obligations.AgeingAndChain : Prop :=
  (∀ (s : State) (k n : Nat), s.awake = true → s.measurable k = true →
    let p := Map.get Lead.init s.plan.clusters k
    let exe := exec (.ageingMeasurement [(k, n)]) s
    (p.r0 = 0 → p.index = 0 → ∃ u, exe = .next u ∧ (u.cluster k).ageing = 0 ∧ u.plan.generation = (s.plan.generation + 1) % 2 ^ 32 ∧
      ∀ j, Map.get Lead.init u.plan.clusters j = if j = k then { p with r0 := 16 * n % 2 ^ 32 } else Map.get Lead.init s.plan.clusters j) ∧
    (p.r0 ≠ 0 →
      let near (i : Int) : Prop := 2 * (i * p.r0 - 1000000 * ((p.r0 : Int) - 16 * n)).natAbs ≤ p.r0
      ((∀ i, near i → -500 ≤ i - p.index ∧ i - p.index ≤ 500) → ∃ (u : State) (i : Int), exe = .next u ∧ near i ∧ u.plan = s.plan ∧
        u.cluster k = { s.cluster k with ageing := i } ∧ ∀ j, j ≠ k → u.cluster j = s.cluster j) ∧
      ((∀ i, near i → i - p.index < -500 ∨ 500 < i - p.index) → ∃ (u : State) (i : Int), exe = .next u ∧ near i ∧
        (u.cluster k).ageing = i ∧ u.plan.generation = (s.plan.generation + 1) % 2 ^ 32 ∧
        (Map.get Lead.init u.plan.clusters k).index = i))) ∧
  (∀ (s : State) (ms : List (Nat × Nat)), s.awake = false → exec (.ageingMeasurement ms) s = .next s) ∧
  (∀ (s : State) (v : UnitRef) (mem : Nat),
    let key := (v.kind * 2 ^ 32 + v.n) * 16 + mem
    let count := Map.get 0 s.mgmt.windows key
    let t := { s with mgmt := { s.mgmt with windows := Map.set 0 s.mgmt.windows key 0 } }
    (count < 2 → exec (.correctedWindowEnd v mem) s = .next t) ∧
    (2 ≤ count → s.mgmt.started = true → ∃ u, exec (.correctedWindowEnd v mem) s = .next u ∧ u.mgmt.windows = t.mgmt.windows ∧
      u.mgmt.seqNext = s.mgmt.seqNext + 1 ∧ u.cores = s.cores ∧ u.formes = s.formes ∧ ∃ b : Rec, u.mgmt.held.getLast? = some b ∧
        bytesAt b.bytes 4 1 = 0 ∧ bytesAt b.bytes 5 1 = 1 ∧ bytesAt b.bytes 20 4 = v.n % 2 ^ 32 ∧ bytesAt b.bytes 48 4 = count % 2 ^ 32)) ∧
  (∀ s : State,
    let due := s.mgmt.started = true ∧ s.mgmt.checkPending = false ∧ 1 ≤ s.mgmt.sinceCheck
    (∀ loc, s.mgmt.started = true → s.mgmt.checkPending = true → Map.get 0 s.mgmt.windows ((9 * 2 ^ 32 + 0) * 16 + 6) = 0 →
      ∃ (u : State) (b : Rec), exec (.checkpoint [loc]) s = .next u ∧ u.mgmt.seqNext = s.mgmt.seqNext + 1 ∧
        u.mgmt.held.getLast? = some b ∧ bytesAt b.bytes 5 1 = 1 ∧ bytesAt b.bytes 17 1 = 9 ∧ bytesAt b.bytes 32 1 = 6 ∧
        bytesAt b.bytes 40 8 = loc % 2 ^ 64 ∧ u.cores = s.cores ∧ u.formes = s.formes) ∧
    let waits := s.mgmt.started = true ∧ s.mgmt.checkPending = true ∧ 1 ≤ s.mgmt.sinceCheck
    (¬ due → ¬ waits → exec (.checkpoint []) s = .next s) ∧
    (waits → exec (.checkpoint []) s = .next { s with mgmt := { s.mgmt with checkDue := true } }) ∧
    (due → ∃ (u : State) (b : Rec) (o : SigOp), exec (.checkpoint []) s = .next u ∧ u.mgmt.seqNext = s.mgmt.seqNext + 1 ∧
      u.mgmt.checkPending = true ∧ u.mgmt.sinceCheck = 0 ∧ u.mgmt.held.getLast? = some b ∧ bytesAt b.bytes 4 1 = 3 ∧
      b.bytes.drop 32 = padTo s.mgmt.chain 32 ∧ u.mgmt.sigQueue = s.mgmt.sigQueue ++ [o] ∧ o.kind = 0 ∧
      (0 < s.mgmt.seqNext → u.mgmt.chain = sha256 (s.mgmt.chain ++ b.bytes)) ∧ u.cores = s.cores ∧ u.formes = s.formes)) ∧
  ∀ s : State,
    (s.mgmt.sigQueue = [] → exec .signatureComplete s = .next s) ∧
    ∀ (o : SigOp) (rest : List SigOp), s.mgmt.sigQueue = o :: rest →
      let doc := o.body ++ s.mgmt.sign o.body
      (o.kind = 0 → s.mgmt.sinceCheck < 256 → s.mgmt.checkDue = false → ∃ u, exec .signatureComplete s = .next u ∧ u.mgmt.checkPending = false ∧
        u.mgmt.sigQueue = rest ∧ u.mgmt.seqNext = s.mgmt.seqNext ∧ (∃ e ∈ u.mgmt.sigs, e.bytes = doc) ∧
        u = { s with mgmt := u.mgmt }) ∧
      (o.kind ≠ 0 → ∀ c, (s.ring o.n).cmd o.sq = some c → exec .signatureComplete s
        = .next ((({ s with mgmt := { s.mgmt with sigQueue := rest } } : State).hostPut (bytesAt c.entry 16 8) doc false).finish o.n c
            { status := 0x00, detail := 0, mask := 0, value := doc.length }))

/-- The management port: ANNOUNCE at its timer and when the port comes up, which then sends what it held; a port that goes down holds.
SUBSCRIBE adds a collector while there are fewer than four, its expiry takes it away, RESEND answers its source alone, and a router
advertisement adds a prefix.  A port that does not carry traffic does none of it, and no other part of the module changes (R537-R540,
R543).

Under these premises each of announceTimer, subscribe, subscriptionExpiry, resend, managementPortUp, managementPortDown and
routerAdvertisement answers a next state. -/
def Obligations.ManagementPort : Prop :=
  ∀ s : State,
    let m := s.mgmt
    let up := s.mgmtSends = true
    (up → ∃ b : Bytes, exec .announceTimer s = .next { s with mgmt := { m with
        out := m.out ++ (0, b) :: m.subscribers.map (fun d => (d, b)) } } ∧ bytesAt b 0 2 = 0x504D ∧ bytesAt b 2 1 = 1 ∧ bytesAt b 3 1 = 3 ∧
        (m.identity.length = 32 → (b.drop 16).take 32 = m.identity ∧ bytesAt b 48 1 = s.regs.devState % 256)) ∧
    (¬ up → exec .announceTimer s = .next s) ∧
    (m.portUp = true → exec .managementPortUp s = .next s) ∧
    (m.portUp = false → ∃ u, exec .managementPortUp s = .next u ∧ u = { s with mgmt := u.mgmt } ∧ u.mgmt.portUp = true ∧
      u.mgmt.held.map (·.bytes) = m.held.map (·.bytes) ∧ u.mgmt.chain = m.chain ∧
      (s.helperOn 9 = true → m.started = true → (∀ r ∈ u.mgmt.held, r.sent = true) ∧ ∃ d l, u.mgmt.out = m.out ++ d :: l ∧ bytesAt d.2 3 1 = 3) ∧
      (¬ (s.helperOn 9 = true ∧ m.started = true) → u.mgmt = { m with portUp := true })) ∧
    exec .managementPortDown s = .next { s with mgmt := { m with portUp := false } } ∧
    (∀ d : Datagram,
      let good := s.accepts d 4 16 = true ∧ d.src ∉ m.subscribers ∧ m.subscribers.length < 4
      (good → exec (.subscribe d) s = .next { s with mgmt := { m with subscribers := m.subscribers ++ [d.src] } }) ∧
      (¬ good → exec (.subscribe d) s = .next s)) ∧
    (∀ src : Nat, exec (.subscriptionExpiry src) s
      = .next { s with mgmt := { m with subscribers := m.subscribers.filter (fun d => d != src) } }) ∧
    (∀ d : Datagram,
      let first := bytesAt d.bytes 16 4
      let count := bytesAt d.bytes 20 2
      let good := s.accepts d 5 24 = true ∧ 1 ≤ count ∧ count ≤ 4096
      (good → ∃ l : List Bytes, exec (.resend d) s = .next { s with mgmt := { m with out := m.out ++ l.map (fun b => (d.src, b)) } } ∧
        (m.identity.length = 32 → (l.map (fun b => b.drop 16)).flatten
          = ((m.held.map (·.bytes)).filter (fun b => decide (first ≤ recSeq b ∧ recSeq b < first + count))).flatten) ∧
        ∀ b ∈ l, bytesAt b 3 1 = 1) ∧
      (¬ good → exec (.resend d) s = .next s)) ∧
    ∀ pfx : Nat, (up → pfx ∉ m.prefixes → exec (.routerAdvertisement pfx) s
        = .next { s with mgmt := { m with prefixes := m.prefixes ++ [pfx] } }) ∧
      (¬ up ∨ pfx ∈ m.prefixes → exec (.routerAdvertisement pfx) s = .next s)

/-! ### Reset, bring-up and the supply -/

/-- The machine right after reset, in the values that the spec gives: BOOT_ROM, nothing started or commanded, every ring DISABLED, every
forme EMPTY, every feeder port OFF, every core EMPTY, no record chain, POWER_CAP 30, clocks at their reset rates; and host memory, in
which nothing is listed, is in canonical form (R106, R278, R351, R395, R403, R406, R466, R508). -/
def Obligations.ResetValues : Prop :=
  let s := State.reset
  s.regs.devState = 0 ∧ s.regs.step = 0 ∧ s.pending = [] ∧ (∀ r < 75, (s.ring r).state = 0 ∧ (s.ring r).cfg = 0) ∧
    (∀ f < 64, (s.forme f).state = 0) ∧ (∀ p < 16, (s.fport p).link = 0 ∧ (s.fport p).ptc = 1000) ∧
    (∀ c < 229376, (s.core c).st = .empty) ∧ (∀ k < 14336, (s.cluster k).ladder = 0 ∧ (s.cluster k).formeStep = 33) ∧
    (∀ f < 56, (s.field f).powered = false ∧ (s.field f).stc = 1600) ∧ s.clocks.sbc = 200 ∧ s.clocks.mpc = 400 ∧
    s.regs.powerCap = 30 ∧ s.regs.resetDefault = false ∧ s.mgmt.started = false ∧ s.enable = none ∧ s.hellbox = [] ∧
    s.hostMem.sorted = true

/-- Every command answers a next state, whatever its operands and the state: none faults and none is refused.  And every step that answers
a next state takes the front command off the queue, keeps the silicon as it is, and keeps host memory's canonical form. -/
def Obligations.StepKeepsBooks : Prop :=
  (∀ (i : Instr) (s : State), ∃ t : State, exec i s = .next t) ∧
  ∀ s t : State, step s = .next t → t.pending = s.pending.tail ∧ t.phys = s.phys ∧ (s.hostMem.sorted = true → t.hostMem.sorted = true)

/-- A device reset, commanded, by the STATUS_RESET key or for containment, leaves BOOT_ROM with nothing of the compute array, the near tier,
the formes, the rings or the boot, every feeder port OFF, and keeps STATUS_FLAGS and its counter, the host's memory, the widths of the bays
and the record buffer; the record chain ends.  An uncorrectable error of the management
processor's RAM is recorded first (log 108, DESIGN CHOICE) (R408, R501, R507, R515, R544).

Under these premises each of deviceReset and resetDeviceContainment answers a next state. -/
def Obligations.DeviceResets : Prop :=
  ∀ s : State,
    let resets (i : Instr) : Prop := ∃ u, exec i s = .next u ∧ u.regs.devState = 0 ∧ u.regs.step = 0 ∧ u.cores = [] ∧ u.routers = [] ∧
      u.formes = [] ∧ u.stations = [] ∧ u.rings = [] ∧ u.reports = [] ∧ u.hellbox = [] ∧ u.enable = none ∧ u.mgmt.started = false ∧
      u.mgmt.held = s.mgmt.held ∧ u.regs.flags = s.regs.flags ∧ u.regs.flagsCnt = s.regs.flagsCnt ∧ u.regs.regErr = s.regs.regErr ∧
      u.regs.powerCap = 30 ∧ u.hostMem = s.hostMem ∧ u.pending = s.pending ∧ (∀ p, (u.fport p).link = 0 ∧ (u.fport p).bound = none) ∧
      (∀ b, (u.bay b).width = (s.bay b).width ∧ (u.bay b).ops = []) ∧ (∀ k, (u.cluster k).ladder = 0) ∧ u.clocks.sbc = 200
    (s.awake = true → resets (.deviceReset none)) ∧ (∀ ram, s.awake = false → exec (.deviceReset ram) s = .next s) ∧
    (∀ loc, s.awake = true → ∃ u, exec (.deviceReset (some loc)) s = .next u ∧ u.regs.devState = 0 ∧ u.cores = [] ∧ u.formes = [] ∧
      u.stations = [] ∧ u.rings = [] ∧ u.mgmt.started = false ∧ u.hostMem = s.hostMem ∧ (∀ p, (u.fport p).link = 0) ∧
      (s.mgmt.started = true → ∃ b : Rec, u.mgmt.held.getLast? = some b ∧ bytesAt b.bytes 5 1 = 2 ∧ bytesAt b.bytes 17 1 = 9 ∧
        bytesAt b.bytes 18 1 = 3 ∧ bytesAt b.bytes 32 1 = 6 ∧ bytesAt b.bytes 40 8 = loc % 2 ^ 64)) ∧
    (s.awake = true → s.mgmt.resetWait = true → resets .resetDeviceContainment) ∧
    (s.awake = false ∨ s.mgmt.resetWait = false → exec .resetDeviceContainment s = .next s)

/-- Bring-up.  The boot ROM clocks its helpers and waits for the host; an error of the ROM that its code corrects is recorded, one that it
cannot puts the device into FAILED (log 108, DESIGN CHOICE).  The identity derivation writes the hash of the public key, starts
the record chain and takes the factory hellbox, or fails the boot with SIGFAIL.  A wave powers the next row of fields, the tests begin
after the seventh when every loop has locked, and a rail that fails its regulation fails the device (R398, R490-R492, R510, R512, R541, R569, R570,
R598).

Under these premises each of bootRomStart, identityDerivation, fieldPowerWave and railRegulationTimeout answers a next state. -/
def Obligations.BootSteps : Prop :=
  (∀ s : State,
    let due := s.awake = true ∧ s.regs.devState = 0 ∧ s.clocks.pinQualified = true
    let starts : Regs := { s.regs with helperEn := 0x79FF, helperLock := 0x79FF, devState := 1, step := 1 }
    (due → exec (.bootRomStart none) s = .next { s with regs := starts }) ∧
    (due → ∃ u, exec (.bootRomStart (some false)) s = .next u ∧
      u.regs = { starts with flags := u.regs.flags, flagsCnt := u.regs.flagsCnt } ∧ u.cores = s.cores ∧ u.formes = s.formes) ∧
    (due → ∃ u, exec (.bootRomStart (some true)) s = .next u ∧ u.regs.devState = 6 ∧ u.cores = s.cores ∧
      (s.mgmt.started = false → ∃ l b, u.mgmt.early = s.mgmt.early ++ b :: l ∧ bytesAt b 5 1 = 2 ∧ bytesAt b 17 1 = 9)) ∧
    (∀ rom, ¬ due → exec (.bootRomStart rom) s = .next s)) ∧
  (∀ (s₀ : State) (k : BitVec 256) (selfTest : Bool) (stores : List HostStore),
    let s := s₀.hostStores stores
    let due := s.awake = true ∧ s.regs.devState = 2 ∧ s.regs.step = 2 ∧ (s.bay s.regs.bootBay).width ≠ 0
    let b := (s.item 3).getD []
    let good := s.identityItemOk b = true ∧ sha256 (pufPublicKey k) = (b.drop 32).take 32 ∧ selfTest = true
    let exe := exec (.identityDerivation k selfTest stores) s₀
    (¬ due → exe = .next s) ∧
    (due → ¬ good → ∃ u, exe = .next u ∧ u.regs.devState = 1 ∧ u.regs.errItem = 3 ∧ u.regs.errStatus = 0x0E ∧
      u.regs.flags.getLsbD 1 = true ∧ u.mgmt = s.mgmt) ∧
    (due → good → ∃ u, exe = .next u ∧ u.mgmt.identity = sha256 (pufPublicKey k) ∧ u.mgmt.key = some k ∧ u.mgmt.started = true ∧
      u.regs.helperEn.getLsbD 14 = false ∧ u.cores = s.cores ∧
      ((u.regs.devState = 2 ∧ u.regs.step = 3) ∨ (u.regs.devState = 1 ∧ u.regs.errItem = 4)))) ∧
  (∀ s : State,
    let n := s.boot.wave
    let due := s.awake = true ∧ s.regs.devState = 2 ∧ (s.regs.step = 3 ∨ s.regs.step = 4) ∧ n < 7 ∧ s.power.tripWait = false ∧
      s.power.wavesHeld = false ∧ s.power.input = 1
    (¬ due → exec .fieldPowerWave s = .next s) ∧
    (due → ∃ u, exec .fieldPowerWave s = .next u ∧ u.boot.wave = n + 1 ∧
      (∀ f, u.field f = if f / 8 = n ∧ s.fieldPresent f = true then { s.field f with powered := true } else s.field f) ∧
      (n < 6 → u.regs.devState = 2 ∧ u.regs.step = 4) ∧
      (n = 6 → (u.regs.devState = 2 ∧ u.regs.step = 5) ∨ (u.regs.devState = 3 ∧ u.regs.step = 6)) ∧ u.clusters = s.clusters)) ∧
  ∀ (s : State) (f : Nat),
    let due := s.regs.devState = 2 ∧ 4 ≤ s.regs.step ∧ f / 8 + 1 = s.boot.wave ∧ (s.field f).powered = true
    (¬ due → exec (.railRegulationTimeout f) s = .next s) ∧
    (due → ∃ u, exec (.railRegulationTimeout f) s = .next u ∧ u.regs.devState = 6 ∧ u.regs.errItem = 0x80 + f ∧ u.regs.errStatus = 0x06 ∧
      u.cores = [] ∧ ∀ n, (u.field n).powered = false)

/-- The tests of bring-up and the gate.  The core-store test records the dead cores that it found, retires a cluster whose final pass failed,
and makes a new plan; the near-tier test, which runs beside link discovery, leaves zeros and retires granules; link discovery records dead links and retires clusters, and a
failing edge fails the device; the readiness gate answers READY when the topology is the expected one and DEGRADED with its flag when not.
Outside bring-up the end of a test completes the START_TEST that ran it (R494-R500, R503).

Under these premises each of coreStoreTestDone, nearTierTestDone, linkDiscoveryDone and readinessGate answers a next state. -/
def Obligations.BootTests : Prop :=
  ∀ s : State, s.awake = true →
    let tested (n : Nat) : Prop := s.regs.devState = 3 ∧ s.regs.step = n
    let fields (f : Nat) : Prop := f < 56 ∧ s.fieldPresent f = true ∧ (s.field f).powered = true
    (∀ t : ClusterTest, tested 6 → isCluster t.cluster = true → fields (clusterField t.cluster) → s.clusterPresent t.cluster = true →
      s.additions.length + 17 ≤ 4096 → ∃ u, exec (.coreStoreTestDone [t]) s = .next u ∧ u.regs.devState = 3 ∧
        u.regs.step = 8 ∧ u.plan.generation = (s.plan.generation + 1) % 2 ^ 32 ∧
        u.hellbox = s.hellbox ++ ((clusterCores t.cluster).filter (fun c => t.deadCores.contains c && s.present c)).map (fun c => s.deadSite c 1)
          ++ (if t.finalFail then [retiredEntry t.cluster 1] else []) ∧
        (Map.get Lead.init u.plan.clusters t.cluster).voff = max (-8) (min 12 (t.lowest + 4)) ∧
        (Map.get Lead.init u.plan.clusters t.cluster).cap = max 8 (min 33 t.cap)) ∧
    (∀ gs : List Nat, tested 8 → s.phys.stacked = true → s.boot.nearDone = false → ∃ u, exec (.nearTierTestDone gs) s = .next u ∧
      u.regs.devState = 3 ∧ u.regs.step = (if s.boot.linksDone then 9 else 8) ∧ u.boot.nearDone = true ∧
      (∀ n, fields (n / 8) → (u.station n).mem = [] ∧ (u.station n).comb = [] ∧ (u.station n).idem = (s.station n).idem ∧
        ∀ a ∈ gs, a / 2 ^ 33 = n → a % 2 ^ 33 < bufferBase → a % 2 ^ 33 / 4096 ∈ (u.station n).granules) ∧
      ∀ n, ¬ fields (n / 8) → u.station n = s.station n) ∧
    (tested 8 → s.boot.linksDone = false →
      let after := if s.phys.stacked = true ∧ s.boot.nearDone = false then 8 else 9
      (∀ t : LinkTest, t.edgeFail = true → ∃ u, exec (.linkDiscoveryDone t) s = .next u ∧ u.regs.devState = 6 ∧ u.regs.errItem = 0xC0 ∧
        u.regs.errStatus = 0x06 ∧ u.cores = []) ∧
      (∀ c d n k j, isCore c = true → d < 4 → fields (fieldOf c) → s.present c = true → s.neighbour c d = some n → s.present n = true →
        s.linkDeadIn s.hellbox c d = false → s.additions.length + 1 ≤ 4096 →
        ∃ u, exec (.linkDiscoveryDone ⟨[(c, d, k, j)], [], false⟩) s = .next u ∧ u.regs.step = after ∧
          u.hellbox = s.hellbox ++ if 16 < k ∨ 0 < j then [s.deadLink c d 2] else []) ∧
      (∀ k, isCluster k = true → fields (clusterField k) → s.clusterPresent k = true → s.additions.length + 1 ≤ 4096 →
        ∃ u, exec (.linkDiscoveryDone ⟨[], [k], false⟩) s = .next u ∧ u.regs.step = after ∧ u.hellbox = s.hellbox ++ [retiredEntry k 2])) ∧
    (tested 9 → (s.boot.reportAddr = 0 ∨ (s.bay s.regs.bootBay).width ≠ 0) → ∃ u, exec .readinessGate s = .next u ∧ u.regs.step = 10 ∧
      (s.gateDiffs = [] → u.regs.devState = 4 ∧ u.regs.flags = s.regs.flags) ∧
      (s.gateDiffs ≠ [] → u.regs.devState = 5 ∧ u.regs.flags.getLsbD 7 = true) ∧ u.cores = s.cores ∧ u.hellbox = s.hellbox) ∧
    ∀ (kind r : Nat) (c : Cmd) (i : Instr), (kind, i) ∈ ([(0, .coreStoreTestDone []), (1, .nearTierTestDone []),
        (2, .linkDiscoveryDone ⟨[], [], false⟩)] : List (Nat × Instr)) → s.regs.devState ≠ 3 → (s.fieldTests kind).head? = some (r, c) →
      ∃ u, exec i s = .next u ∧ u.isDone r c.sq ∧ ∀ f < 56, (bytesAt c.entry 24 8).testBit f = true → (u.field f).testing = 0

/-- The supply and the control connector: the input's rise and power-good bring the standby rails up and train the bays; an input that
leaves its range trips the module and holds the waves until it is back; its loss takes everything but the host's memory and the silicon.
One lost clip pair lowers the cap in force to 6.0 kW.  RESET_L low for 100 µs or more is a module reset that lasts until its release, and
a shorter one than 10 µs none; and a trip's wait ends (R472, R485, R508, R578-R580, R584, R585).

Under these premises each of powerGood, tripWaitExpiry, inputRise, inputOutOfRange, inputReturn, inputLost, clipPairLost,
clipPairReturn, resetLAssert and resetLRelease answers a next state. -/
def Obligations.Supply : Prop :=
  ∀ s : State,
    let p := s.power
    (p.input = 0 → exec .inputRise s = .next { s with power := { p with input := 1 } }) ∧ (p.input ≠ 0 → exec .inputRise s = .next s) ∧
    (p.input ≠ 0 → p.standby = false → ∃ u, exec .powerGood s = .next u ∧ u.power = { p with standby := true, pwrOk := true } ∧
      (∀ b, u.bay b = if p.resetLow = false ∧ (s.bay b).die = true then { s.bay b with width := 3 } else s.bay b) ∧
      u = { s with power := u.power, bays := u.bays }) ∧
    (p.input = 0 ∨ p.standby = true → exec .powerGood s = .next s) ∧
    (p.standby = true → p.input = 1 → ∃ u, exec .inputOutOfRange s = .next u ∧ u.power.input = 2 ∧ u.power.tripLatched = true ∧
      u.power.wavesHeld = true ∧ (p.resetLow = false → u.regs.devState = 6 ∧ u.cores = [] ∧ u.pins.tripL = false ∧ u.pins.faultL = false)) ∧
    (p.standby = false ∨ p.input ≠ 1 → exec .inputOutOfRange s = .next s) ∧
    (p.standby = true → p.input = 2 → exec .inputReturn s = .next { s with power := { p with input := 1, wavesHeld := false } }) ∧
    (p.standby = false ∨ p.input ≠ 2 → exec .inputReturn s = .next s) ∧
    (p.input ≠ 0 → ∃ u, exec .inputLost s = .next u ∧ u.power.input = 0 ∧ u.power.standby = false ∧ u.cores = [] ∧ u.clusters = [] ∧
      u.rings = [] ∧ u.formes = [] ∧ u.stations = [] ∧ u.mgmt.held = [] ∧ u.regs.flags = 0 ∧ (∀ b, (u.bay b).width = 0) ∧
      u.hostMem = s.hostMem ∧ u.phys = s.phys) ∧
    (p.input = 0 → exec .inputLost s = .next s) ∧
    (∀ q : Nat,
      (p.standby = true → p.pairLost q = false → ∃ u, exec (.clipPairLost q) s = .next u ∧ u.power = p.setPair q true ∧ u.capInForce ≤ 60 ∧
        (s.awake = true → p.pairLost (1 - q) = false → u.regs.flags.getLsbD 5 = true) ∧ u.regs.powerCap = s.regs.powerCap ∧ u.cores = s.cores) ∧
      (p.standby = false ∨ p.pairLost q = true → exec (.clipPairLost q) s = .next s) ∧
      (p.pairLost q = true → exec (.clipPairReturn q) s = .next { s with power := p.setPair q false }) ∧
      (p.pairLost q = false → exec (.clipPairReturn q) s = .next s)) ∧
    (∀ (us : Nat) (taken : Bool),
      let asserts := 100 ≤ us ∨ (10 ≤ us ∧ taken = true)
      (¬ asserts → exec (.resetLAssert us taken) s = .next s) ∧
      (asserts → p.standby = true → ∃ u, exec (.resetLAssert us taken) s = .next u ∧ u.power.resetLow = true ∧ u.power.tripLatched = false ∧
        u.regs.devState = 0 ∧ u.cores = [] ∧ u.rings = [] ∧ u.formes = [] ∧ u.stations = [] ∧ u.mgmt.held = [] ∧ u.regs.flags = 0 ∧
        (∀ b, (u.bay b).width = 0) ∧ (∀ q, (u.fport q).link = 0) ∧ u.hostMem = s.hostMem ∧ u.phys = s.phys) ∧
      (asserts → p.standby = false → exec (.resetLAssert us taken) s = .next { s with power := { p with resetLow := true } })) ∧
    (p.resetLow = true → ∃ u, exec .resetLRelease s = .next u ∧ u.power = { p with resetLow := false } ∧
      (∀ b, u.bay b = if p.standby = true ∧ (s.bay b).die = true then { s.bay b with width := 3 } else s.bay b) ∧
      u = { s with power := u.power, bays := u.bays }) ∧
    (p.resetLow = false → exec .resetLRelease s = .next s) ∧
    exec .tripWaitExpiry s = .next { s with power := { p with tripWait := false } }
end

