-- ==== Sys2Proof/Laws/State.lean ====
section
/-! SUPPORT. What each update of the state leaves: one lemma per field and update, true by unfolding. -/

namespace Sys2Proof.Machine

/-! ### Core -/

@[simp] theorem State.setCore_pending (s : State) (c : Nat) (x : Core) : (s.setCore c x).pending = s.pending := rfl
@[simp] theorem State.updCore_pending (s : State) (c : Nat) (g : Core → Core) : (s.updCore c g).pending = s.pending := rfl
@[simp] theorem State.setCore_routers (s : State) (c : Nat) (x : Core) : (s.setCore c x).routers = s.routers := rfl
@[simp] theorem State.updCore_routers (s : State) (c : Nat) (g : Core → Core) : (s.updCore c g).routers = s.routers := rfl
@[simp] theorem State.setCore_clusters (s : State) (c : Nat) (x : Core) : (s.setCore c x).clusters = s.clusters := rfl
@[simp] theorem State.updCore_clusters (s : State) (c : Nat) (g : Core → Core) : (s.updCore c g).clusters = s.clusters := rfl
@[simp] theorem State.setCore_fields (s : State) (c : Nat) (x : Core) : (s.setCore c x).fields = s.fields := rfl
@[simp] theorem State.updCore_fields (s : State) (c : Nat) (g : Core → Core) : (s.updCore c g).fields = s.fields := rfl
@[simp] theorem State.setCore_formes (s : State) (c : Nat) (x : Core) : (s.setCore c x).formes = s.formes := rfl
@[simp] theorem State.updCore_formes (s : State) (c : Nat) (g : Core → Core) : (s.updCore c g).formes = s.formes := rfl
@[simp] theorem State.setCore_stations (s : State) (c : Nat) (x : Core) : (s.setCore c x).stations = s.stations := rfl
@[simp] theorem State.updCore_stations (s : State) (c : Nat) (g : Core → Core) : (s.updCore c g).stations = s.stations := rfl
@[simp] theorem State.setCore_fports (s : State) (c : Nat) (x : Core) : (s.setCore c x).fports = s.fports := rfl
@[simp] theorem State.updCore_fports (s : State) (c : Nat) (g : Core → Core) : (s.updCore c g).fports = s.fports := rfl
@[simp] theorem State.setCore_bays (s : State) (c : Nat) (x : Core) : (s.setCore c x).bays = s.bays := rfl
@[simp] theorem State.updCore_bays (s : State) (c : Nat) (g : Core → Core) : (s.updCore c g).bays = s.bays := rfl
@[simp] theorem State.setCore_rings (s : State) (c : Nat) (x : Core) : (s.setCore c x).rings = s.rings := rfl
@[simp] theorem State.updCore_rings (s : State) (c : Nat) (g : Core → Core) : (s.updCore c g).rings = s.rings := rfl
@[simp] theorem State.setCore_reports (s : State) (c : Nat) (x : Core) : (s.setCore c x).reports = s.reports := rfl
@[simp] theorem State.updCore_reports (s : State) (c : Nat) (g : Core → Core) : (s.updCore c g).reports = s.reports := rfl
@[simp] theorem State.setCore_hellbox (s : State) (c : Nat) (x : Core) : (s.setCore c x).hellbox = s.hellbox := rfl
@[simp] theorem State.updCore_hellbox (s : State) (c : Nat) (g : Core → Core) : (s.updCore c g).hellbox = s.hellbox := rfl
@[simp] theorem State.setCore_columns (s : State) (c : Nat) (x : Core) : (s.setCore c x).columns = s.columns := rfl
@[simp] theorem State.updCore_columns (s : State) (c : Nat) (g : Core → Core) : (s.updCore c g).columns = s.columns := rfl
@[simp] theorem State.setCore_mapGen (s : State) (c : Nat) (x : Core) : (s.setCore c x).mapGen = s.mapGen := rfl
@[simp] theorem State.updCore_mapGen (s : State) (c : Nat) (g : Core → Core) : (s.updCore c g).mapGen = s.mapGen := rfl
@[simp] theorem State.setCore_enable (s : State) (c : Nat) (x : Core) : (s.setCore c x).enable = s.enable := rfl
@[simp] theorem State.updCore_enable (s : State) (c : Nat) (g : Core → Core) : (s.updCore c g).enable = s.enable := rfl
@[simp] theorem State.setCore_boot (s : State) (c : Nat) (x : Core) : (s.setCore c x).boot = s.boot := rfl
@[simp] theorem State.updCore_boot (s : State) (c : Nat) (g : Core → Core) : (s.updCore c g).boot = s.boot := rfl
@[simp] theorem State.setCore_phys (s : State) (c : Nat) (x : Core) : (s.setCore c x).phys = s.phys := rfl
@[simp] theorem State.updCore_phys (s : State) (c : Nat) (g : Core → Core) : (s.updCore c g).phys = s.phys := rfl
@[simp] theorem State.setCore_plan (s : State) (c : Nat) (x : Core) : (s.setCore c x).plan = s.plan := rfl
@[simp] theorem State.updCore_plan (s : State) (c : Nat) (g : Core → Core) : (s.updCore c g).plan = s.plan := rfl
@[simp] theorem State.setCore_mgmt (s : State) (c : Nat) (x : Core) : (s.setCore c x).mgmt = s.mgmt := rfl
@[simp] theorem State.updCore_mgmt (s : State) (c : Nat) (g : Core → Core) : (s.updCore c g).mgmt = s.mgmt := rfl
@[simp] theorem State.setCore_recorder (s : State) (c : Nat) (x : Core) : (s.setCore c x).recorder = s.recorder := rfl
@[simp] theorem State.updCore_recorder (s : State) (c : Nat) (g : Core → Core) : (s.updCore c g).recorder = s.recorder := rfl
@[simp] theorem State.setCore_regs (s : State) (c : Nat) (x : Core) : (s.setCore c x).regs = s.regs := rfl
@[simp] theorem State.updCore_regs (s : State) (c : Nat) (g : Core → Core) : (s.updCore c g).regs = s.regs := rfl
@[simp] theorem State.setCore_clocks (s : State) (c : Nat) (x : Core) : (s.setCore c x).clocks = s.clocks := rfl
@[simp] theorem State.updCore_clocks (s : State) (c : Nat) (g : Core → Core) : (s.updCore c g).clocks = s.clocks := rfl
@[simp] theorem State.setCore_power (s : State) (c : Nat) (x : Core) : (s.setCore c x).power = s.power := rfl
@[simp] theorem State.updCore_power (s : State) (c : Nat) (g : Core → Core) : (s.updCore c g).power = s.power := rfl
@[simp] theorem State.setCore_hostMem (s : State) (c : Nat) (x : Core) : (s.setCore c x).hostMem = s.hostMem := rfl
@[simp] theorem State.updCore_hostMem (s : State) (c : Nat) (g : Core → Core) : (s.updCore c g).hostMem = s.hostMem := rfl
@[simp] theorem State.setCore_hostPoison (s : State) (c : Nat) (x : Core) : (s.setCore c x).hostPoison = s.hostPoison := rfl
@[simp] theorem State.updCore_hostPoison (s : State) (c : Nat) (g : Core → Core) : (s.updCore c g).hostPoison = s.hostPoison := rfl
@[simp] theorem State.setCore_msix (s : State) (c : Nat) (x : Core) : (s.setCore c x).msix = s.msix := rfl
@[simp] theorem State.updCore_msix (s : State) (c : Nat) (g : Core → Core) : (s.updCore c g).msix = s.msix := rfl
@[simp] theorem State.setCore_cycles (s : State) (c : Nat) (x : Core) : (s.setCore c x).cycles = s.cycles := rfl
@[simp] theorem State.updCore_cycles (s : State) (c : Nat) (g : Core → Core) : (s.updCore c g).cycles = s.cycles := rfl
@[simp] theorem State.setCore_free (s : State) (c : Nat) (x : Core) : (s.setCore c x).free = s.free := rfl
@[simp] theorem State.updCore_free (s : State) (c : Nat) (g : Core → Core) : (s.updCore c g).free = s.free := rfl
@[simp] theorem State.setCore_at_router (s : State) (c i : Nat) (x : Core) : (s.setCore c x).router i = s.router i := rfl
@[simp] theorem State.updCore_at_router (s : State) (c i : Nat) (g : Core → Core) : (s.updCore c g).router i = s.router i := rfl
@[simp] theorem State.setCore_at_cluster (s : State) (c i : Nat) (x : Core) : (s.setCore c x).cluster i = s.cluster i := rfl
@[simp] theorem State.updCore_at_cluster (s : State) (c i : Nat) (g : Core → Core) : (s.updCore c g).cluster i = s.cluster i := rfl
@[simp] theorem State.setCore_at_field (s : State) (c i : Nat) (x : Core) : (s.setCore c x).field i = s.field i := rfl
@[simp] theorem State.updCore_at_field (s : State) (c i : Nat) (g : Core → Core) : (s.updCore c g).field i = s.field i := rfl
@[simp] theorem State.setCore_at_forme (s : State) (c i : Nat) (x : Core) : (s.setCore c x).forme i = s.forme i := rfl
@[simp] theorem State.updCore_at_forme (s : State) (c i : Nat) (g : Core → Core) : (s.updCore c g).forme i = s.forme i := rfl
@[simp] theorem State.setCore_at_station (s : State) (c i : Nat) (x : Core) : (s.setCore c x).station i = s.station i := rfl
@[simp] theorem State.updCore_at_station (s : State) (c i : Nat) (g : Core → Core) : (s.updCore c g).station i = s.station i := rfl
@[simp] theorem State.setCore_at_fport (s : State) (c i : Nat) (x : Core) : (s.setCore c x).fport i = s.fport i := rfl
@[simp] theorem State.updCore_at_fport (s : State) (c i : Nat) (g : Core → Core) : (s.updCore c g).fport i = s.fport i := rfl
@[simp] theorem State.setCore_at_bay (s : State) (c i : Nat) (x : Core) : (s.setCore c x).bay i = s.bay i := rfl
@[simp] theorem State.updCore_at_bay (s : State) (c i : Nat) (g : Core → Core) : (s.updCore c g).bay i = s.bay i := rfl
@[simp] theorem State.setCore_at_ring (s : State) (c i : Nat) (x : Core) : (s.setCore c x).ring i = s.ring i := rfl
@[simp] theorem State.updCore_at_ring (s : State) (c i : Nat) (g : Core → Core) : (s.updCore c g).ring i = s.ring i := rfl

/-! ### Router -/

@[simp] theorem State.setRouter_pending (s : State) (c : Nat) (x : Router) : (s.setRouter c x).pending = s.pending := rfl
@[simp] theorem State.updRouter_pending (s : State) (c : Nat) (g : Router → Router) : (s.updRouter c g).pending = s.pending := rfl
@[simp] theorem State.setRouter_cores (s : State) (c : Nat) (x : Router) : (s.setRouter c x).cores = s.cores := rfl
@[simp] theorem State.updRouter_cores (s : State) (c : Nat) (g : Router → Router) : (s.updRouter c g).cores = s.cores := rfl
@[simp] theorem State.setRouter_clusters (s : State) (c : Nat) (x : Router) : (s.setRouter c x).clusters = s.clusters := rfl
@[simp] theorem State.updRouter_clusters (s : State) (c : Nat) (g : Router → Router) : (s.updRouter c g).clusters = s.clusters := rfl
@[simp] theorem State.setRouter_fields (s : State) (c : Nat) (x : Router) : (s.setRouter c x).fields = s.fields := rfl
@[simp] theorem State.updRouter_fields (s : State) (c : Nat) (g : Router → Router) : (s.updRouter c g).fields = s.fields := rfl
@[simp] theorem State.setRouter_formes (s : State) (c : Nat) (x : Router) : (s.setRouter c x).formes = s.formes := rfl
@[simp] theorem State.updRouter_formes (s : State) (c : Nat) (g : Router → Router) : (s.updRouter c g).formes = s.formes := rfl
@[simp] theorem State.setRouter_stations (s : State) (c : Nat) (x : Router) : (s.setRouter c x).stations = s.stations := rfl
@[simp] theorem State.updRouter_stations (s : State) (c : Nat) (g : Router → Router) : (s.updRouter c g).stations = s.stations := rfl
@[simp] theorem State.setRouter_fports (s : State) (c : Nat) (x : Router) : (s.setRouter c x).fports = s.fports := rfl
@[simp] theorem State.updRouter_fports (s : State) (c : Nat) (g : Router → Router) : (s.updRouter c g).fports = s.fports := rfl
@[simp] theorem State.setRouter_bays (s : State) (c : Nat) (x : Router) : (s.setRouter c x).bays = s.bays := rfl
@[simp] theorem State.updRouter_bays (s : State) (c : Nat) (g : Router → Router) : (s.updRouter c g).bays = s.bays := rfl
@[simp] theorem State.setRouter_rings (s : State) (c : Nat) (x : Router) : (s.setRouter c x).rings = s.rings := rfl
@[simp] theorem State.updRouter_rings (s : State) (c : Nat) (g : Router → Router) : (s.updRouter c g).rings = s.rings := rfl
@[simp] theorem State.setRouter_reports (s : State) (c : Nat) (x : Router) : (s.setRouter c x).reports = s.reports := rfl
@[simp] theorem State.updRouter_reports (s : State) (c : Nat) (g : Router → Router) : (s.updRouter c g).reports = s.reports := rfl
@[simp] theorem State.setRouter_hellbox (s : State) (c : Nat) (x : Router) : (s.setRouter c x).hellbox = s.hellbox := rfl
@[simp] theorem State.updRouter_hellbox (s : State) (c : Nat) (g : Router → Router) : (s.updRouter c g).hellbox = s.hellbox := rfl
@[simp] theorem State.setRouter_columns (s : State) (c : Nat) (x : Router) : (s.setRouter c x).columns = s.columns := rfl
@[simp] theorem State.updRouter_columns (s : State) (c : Nat) (g : Router → Router) : (s.updRouter c g).columns = s.columns := rfl
@[simp] theorem State.setRouter_mapGen (s : State) (c : Nat) (x : Router) : (s.setRouter c x).mapGen = s.mapGen := rfl
@[simp] theorem State.updRouter_mapGen (s : State) (c : Nat) (g : Router → Router) : (s.updRouter c g).mapGen = s.mapGen := rfl
@[simp] theorem State.setRouter_enable (s : State) (c : Nat) (x : Router) : (s.setRouter c x).enable = s.enable := rfl
@[simp] theorem State.updRouter_enable (s : State) (c : Nat) (g : Router → Router) : (s.updRouter c g).enable = s.enable := rfl
@[simp] theorem State.setRouter_boot (s : State) (c : Nat) (x : Router) : (s.setRouter c x).boot = s.boot := rfl
@[simp] theorem State.updRouter_boot (s : State) (c : Nat) (g : Router → Router) : (s.updRouter c g).boot = s.boot := rfl
@[simp] theorem State.setRouter_phys (s : State) (c : Nat) (x : Router) : (s.setRouter c x).phys = s.phys := rfl
@[simp] theorem State.updRouter_phys (s : State) (c : Nat) (g : Router → Router) : (s.updRouter c g).phys = s.phys := rfl
@[simp] theorem State.setRouter_plan (s : State) (c : Nat) (x : Router) : (s.setRouter c x).plan = s.plan := rfl
@[simp] theorem State.updRouter_plan (s : State) (c : Nat) (g : Router → Router) : (s.updRouter c g).plan = s.plan := rfl
@[simp] theorem State.setRouter_mgmt (s : State) (c : Nat) (x : Router) : (s.setRouter c x).mgmt = s.mgmt := rfl
@[simp] theorem State.updRouter_mgmt (s : State) (c : Nat) (g : Router → Router) : (s.updRouter c g).mgmt = s.mgmt := rfl
@[simp] theorem State.setRouter_recorder (s : State) (c : Nat) (x : Router) : (s.setRouter c x).recorder = s.recorder := rfl
@[simp] theorem State.updRouter_recorder (s : State) (c : Nat) (g : Router → Router) : (s.updRouter c g).recorder = s.recorder := rfl
@[simp] theorem State.setRouter_regs (s : State) (c : Nat) (x : Router) : (s.setRouter c x).regs = s.regs := rfl
@[simp] theorem State.updRouter_regs (s : State) (c : Nat) (g : Router → Router) : (s.updRouter c g).regs = s.regs := rfl
@[simp] theorem State.setRouter_clocks (s : State) (c : Nat) (x : Router) : (s.setRouter c x).clocks = s.clocks := rfl
@[simp] theorem State.updRouter_clocks (s : State) (c : Nat) (g : Router → Router) : (s.updRouter c g).clocks = s.clocks := rfl
@[simp] theorem State.setRouter_power (s : State) (c : Nat) (x : Router) : (s.setRouter c x).power = s.power := rfl
@[simp] theorem State.updRouter_power (s : State) (c : Nat) (g : Router → Router) : (s.updRouter c g).power = s.power := rfl
@[simp] theorem State.setRouter_hostMem (s : State) (c : Nat) (x : Router) : (s.setRouter c x).hostMem = s.hostMem := rfl
@[simp] theorem State.updRouter_hostMem (s : State) (c : Nat) (g : Router → Router) : (s.updRouter c g).hostMem = s.hostMem := rfl
@[simp] theorem State.setRouter_hostPoison (s : State) (c : Nat) (x : Router) : (s.setRouter c x).hostPoison = s.hostPoison := rfl
@[simp] theorem State.updRouter_hostPoison (s : State) (c : Nat) (g : Router → Router) : (s.updRouter c g).hostPoison = s.hostPoison := rfl
@[simp] theorem State.setRouter_msix (s : State) (c : Nat) (x : Router) : (s.setRouter c x).msix = s.msix := rfl
@[simp] theorem State.updRouter_msix (s : State) (c : Nat) (g : Router → Router) : (s.updRouter c g).msix = s.msix := rfl
@[simp] theorem State.setRouter_cycles (s : State) (c : Nat) (x : Router) : (s.setRouter c x).cycles = s.cycles := rfl
@[simp] theorem State.updRouter_cycles (s : State) (c : Nat) (g : Router → Router) : (s.updRouter c g).cycles = s.cycles := rfl
@[simp] theorem State.setRouter_free (s : State) (c : Nat) (x : Router) : (s.setRouter c x).free = s.free := rfl
@[simp] theorem State.updRouter_free (s : State) (c : Nat) (g : Router → Router) : (s.updRouter c g).free = s.free := rfl
@[simp] theorem State.setRouter_at_core (s : State) (c i : Nat) (x : Router) : (s.setRouter c x).core i = s.core i := rfl
@[simp] theorem State.updRouter_at_core (s : State) (c i : Nat) (g : Router → Router) : (s.updRouter c g).core i = s.core i := rfl
@[simp] theorem State.setRouter_at_cluster (s : State) (c i : Nat) (x : Router) : (s.setRouter c x).cluster i = s.cluster i := rfl
@[simp] theorem State.updRouter_at_cluster (s : State) (c i : Nat) (g : Router → Router) : (s.updRouter c g).cluster i = s.cluster i := rfl
@[simp] theorem State.setRouter_at_field (s : State) (c i : Nat) (x : Router) : (s.setRouter c x).field i = s.field i := rfl
@[simp] theorem State.updRouter_at_field (s : State) (c i : Nat) (g : Router → Router) : (s.updRouter c g).field i = s.field i := rfl
@[simp] theorem State.setRouter_at_forme (s : State) (c i : Nat) (x : Router) : (s.setRouter c x).forme i = s.forme i := rfl
@[simp] theorem State.updRouter_at_forme (s : State) (c i : Nat) (g : Router → Router) : (s.updRouter c g).forme i = s.forme i := rfl
@[simp] theorem State.setRouter_at_station (s : State) (c i : Nat) (x : Router) : (s.setRouter c x).station i = s.station i := rfl
@[simp] theorem State.updRouter_at_station (s : State) (c i : Nat) (g : Router → Router) : (s.updRouter c g).station i = s.station i := rfl
@[simp] theorem State.setRouter_at_fport (s : State) (c i : Nat) (x : Router) : (s.setRouter c x).fport i = s.fport i := rfl
@[simp] theorem State.updRouter_at_fport (s : State) (c i : Nat) (g : Router → Router) : (s.updRouter c g).fport i = s.fport i := rfl
@[simp] theorem State.setRouter_at_bay (s : State) (c i : Nat) (x : Router) : (s.setRouter c x).bay i = s.bay i := rfl
@[simp] theorem State.updRouter_at_bay (s : State) (c i : Nat) (g : Router → Router) : (s.updRouter c g).bay i = s.bay i := rfl
@[simp] theorem State.setRouter_at_ring (s : State) (c i : Nat) (x : Router) : (s.setRouter c x).ring i = s.ring i := rfl
@[simp] theorem State.updRouter_at_ring (s : State) (c i : Nat) (g : Router → Router) : (s.updRouter c g).ring i = s.ring i := rfl

/-! ### Cluster -/

@[simp] theorem State.setCluster_pending (s : State) (k : Nat) (x : Cluster) : (s.setCluster k x).pending = s.pending := rfl
@[simp] theorem State.updCluster_pending (s : State) (k : Nat) (g : Cluster → Cluster) : (s.updCluster k g).pending = s.pending := rfl
@[simp] theorem State.setCluster_cores (s : State) (k : Nat) (x : Cluster) : (s.setCluster k x).cores = s.cores := rfl
@[simp] theorem State.updCluster_cores (s : State) (k : Nat) (g : Cluster → Cluster) : (s.updCluster k g).cores = s.cores := rfl
@[simp] theorem State.setCluster_routers (s : State) (k : Nat) (x : Cluster) : (s.setCluster k x).routers = s.routers := rfl
@[simp] theorem State.updCluster_routers (s : State) (k : Nat) (g : Cluster → Cluster) : (s.updCluster k g).routers = s.routers := rfl
@[simp] theorem State.setCluster_fields (s : State) (k : Nat) (x : Cluster) : (s.setCluster k x).fields = s.fields := rfl
@[simp] theorem State.updCluster_fields (s : State) (k : Nat) (g : Cluster → Cluster) : (s.updCluster k g).fields = s.fields := rfl
@[simp] theorem State.setCluster_formes (s : State) (k : Nat) (x : Cluster) : (s.setCluster k x).formes = s.formes := rfl
@[simp] theorem State.updCluster_formes (s : State) (k : Nat) (g : Cluster → Cluster) : (s.updCluster k g).formes = s.formes := rfl
@[simp] theorem State.setCluster_stations (s : State) (k : Nat) (x : Cluster) : (s.setCluster k x).stations = s.stations := rfl
@[simp] theorem State.updCluster_stations (s : State) (k : Nat) (g : Cluster → Cluster) : (s.updCluster k g).stations = s.stations := rfl
@[simp] theorem State.setCluster_fports (s : State) (k : Nat) (x : Cluster) : (s.setCluster k x).fports = s.fports := rfl
@[simp] theorem State.updCluster_fports (s : State) (k : Nat) (g : Cluster → Cluster) : (s.updCluster k g).fports = s.fports := rfl
@[simp] theorem State.setCluster_bays (s : State) (k : Nat) (x : Cluster) : (s.setCluster k x).bays = s.bays := rfl
@[simp] theorem State.updCluster_bays (s : State) (k : Nat) (g : Cluster → Cluster) : (s.updCluster k g).bays = s.bays := rfl
@[simp] theorem State.setCluster_rings (s : State) (k : Nat) (x : Cluster) : (s.setCluster k x).rings = s.rings := rfl
@[simp] theorem State.updCluster_rings (s : State) (k : Nat) (g : Cluster → Cluster) : (s.updCluster k g).rings = s.rings := rfl
@[simp] theorem State.setCluster_reports (s : State) (k : Nat) (x : Cluster) : (s.setCluster k x).reports = s.reports := rfl
@[simp] theorem State.updCluster_reports (s : State) (k : Nat) (g : Cluster → Cluster) : (s.updCluster k g).reports = s.reports := rfl
@[simp] theorem State.setCluster_hellbox (s : State) (k : Nat) (x : Cluster) : (s.setCluster k x).hellbox = s.hellbox := rfl
@[simp] theorem State.updCluster_hellbox (s : State) (k : Nat) (g : Cluster → Cluster) : (s.updCluster k g).hellbox = s.hellbox := rfl
@[simp] theorem State.setCluster_columns (s : State) (k : Nat) (x : Cluster) : (s.setCluster k x).columns = s.columns := rfl
@[simp] theorem State.updCluster_columns (s : State) (k : Nat) (g : Cluster → Cluster) : (s.updCluster k g).columns = s.columns := rfl
@[simp] theorem State.setCluster_mapGen (s : State) (k : Nat) (x : Cluster) : (s.setCluster k x).mapGen = s.mapGen := rfl
@[simp] theorem State.updCluster_mapGen (s : State) (k : Nat) (g : Cluster → Cluster) : (s.updCluster k g).mapGen = s.mapGen := rfl
@[simp] theorem State.setCluster_enable (s : State) (k : Nat) (x : Cluster) : (s.setCluster k x).enable = s.enable := rfl
@[simp] theorem State.updCluster_enable (s : State) (k : Nat) (g : Cluster → Cluster) : (s.updCluster k g).enable = s.enable := rfl
@[simp] theorem State.setCluster_boot (s : State) (k : Nat) (x : Cluster) : (s.setCluster k x).boot = s.boot := rfl
@[simp] theorem State.updCluster_boot (s : State) (k : Nat) (g : Cluster → Cluster) : (s.updCluster k g).boot = s.boot := rfl
@[simp] theorem State.setCluster_phys (s : State) (k : Nat) (x : Cluster) : (s.setCluster k x).phys = s.phys := rfl
@[simp] theorem State.updCluster_phys (s : State) (k : Nat) (g : Cluster → Cluster) : (s.updCluster k g).phys = s.phys := rfl
@[simp] theorem State.setCluster_plan (s : State) (k : Nat) (x : Cluster) : (s.setCluster k x).plan = s.plan := rfl
@[simp] theorem State.updCluster_plan (s : State) (k : Nat) (g : Cluster → Cluster) : (s.updCluster k g).plan = s.plan := rfl
@[simp] theorem State.setCluster_mgmt (s : State) (k : Nat) (x : Cluster) : (s.setCluster k x).mgmt = s.mgmt := rfl
@[simp] theorem State.updCluster_mgmt (s : State) (k : Nat) (g : Cluster → Cluster) : (s.updCluster k g).mgmt = s.mgmt := rfl
@[simp] theorem State.setCluster_recorder (s : State) (k : Nat) (x : Cluster) : (s.setCluster k x).recorder = s.recorder := rfl
@[simp] theorem State.updCluster_recorder (s : State) (k : Nat) (g : Cluster → Cluster) : (s.updCluster k g).recorder = s.recorder := rfl
@[simp] theorem State.setCluster_regs (s : State) (k : Nat) (x : Cluster) : (s.setCluster k x).regs = s.regs := rfl
@[simp] theorem State.updCluster_regs (s : State) (k : Nat) (g : Cluster → Cluster) : (s.updCluster k g).regs = s.regs := rfl
@[simp] theorem State.setCluster_clocks (s : State) (k : Nat) (x : Cluster) : (s.setCluster k x).clocks = s.clocks := rfl
@[simp] theorem State.updCluster_clocks (s : State) (k : Nat) (g : Cluster → Cluster) : (s.updCluster k g).clocks = s.clocks := rfl
@[simp] theorem State.setCluster_power (s : State) (k : Nat) (x : Cluster) : (s.setCluster k x).power = s.power := rfl
@[simp] theorem State.updCluster_power (s : State) (k : Nat) (g : Cluster → Cluster) : (s.updCluster k g).power = s.power := rfl
@[simp] theorem State.setCluster_hostMem (s : State) (k : Nat) (x : Cluster) : (s.setCluster k x).hostMem = s.hostMem := rfl
@[simp] theorem State.updCluster_hostMem (s : State) (k : Nat) (g : Cluster → Cluster) : (s.updCluster k g).hostMem = s.hostMem := rfl
@[simp] theorem State.setCluster_hostPoison (s : State) (k : Nat) (x : Cluster) : (s.setCluster k x).hostPoison = s.hostPoison := rfl
@[simp] theorem State.updCluster_hostPoison (s : State) (k : Nat) (g : Cluster → Cluster) : (s.updCluster k g).hostPoison = s.hostPoison := rfl
@[simp] theorem State.setCluster_msix (s : State) (k : Nat) (x : Cluster) : (s.setCluster k x).msix = s.msix := rfl
@[simp] theorem State.updCluster_msix (s : State) (k : Nat) (g : Cluster → Cluster) : (s.updCluster k g).msix = s.msix := rfl
@[simp] theorem State.setCluster_cycles (s : State) (k : Nat) (x : Cluster) : (s.setCluster k x).cycles = s.cycles := rfl
@[simp] theorem State.updCluster_cycles (s : State) (k : Nat) (g : Cluster → Cluster) : (s.updCluster k g).cycles = s.cycles := rfl
@[simp] theorem State.setCluster_free (s : State) (k : Nat) (x : Cluster) : (s.setCluster k x).free = s.free := rfl
@[simp] theorem State.updCluster_free (s : State) (k : Nat) (g : Cluster → Cluster) : (s.updCluster k g).free = s.free := rfl
@[simp] theorem State.setCluster_at_core (s : State) (k i : Nat) (x : Cluster) : (s.setCluster k x).core i = s.core i := rfl
@[simp] theorem State.updCluster_at_core (s : State) (k i : Nat) (g : Cluster → Cluster) : (s.updCluster k g).core i = s.core i := rfl
@[simp] theorem State.setCluster_at_router (s : State) (k i : Nat) (x : Cluster) : (s.setCluster k x).router i = s.router i := rfl
@[simp] theorem State.updCluster_at_router (s : State) (k i : Nat) (g : Cluster → Cluster) : (s.updCluster k g).router i = s.router i := rfl
@[simp] theorem State.setCluster_at_field (s : State) (k i : Nat) (x : Cluster) : (s.setCluster k x).field i = s.field i := rfl
@[simp] theorem State.updCluster_at_field (s : State) (k i : Nat) (g : Cluster → Cluster) : (s.updCluster k g).field i = s.field i := rfl
@[simp] theorem State.setCluster_at_forme (s : State) (k i : Nat) (x : Cluster) : (s.setCluster k x).forme i = s.forme i := rfl
@[simp] theorem State.updCluster_at_forme (s : State) (k i : Nat) (g : Cluster → Cluster) : (s.updCluster k g).forme i = s.forme i := rfl
@[simp] theorem State.setCluster_at_station (s : State) (k i : Nat) (x : Cluster) : (s.setCluster k x).station i = s.station i := rfl
@[simp] theorem State.updCluster_at_station (s : State) (k i : Nat) (g : Cluster → Cluster) : (s.updCluster k g).station i = s.station i := rfl
@[simp] theorem State.setCluster_at_fport (s : State) (k i : Nat) (x : Cluster) : (s.setCluster k x).fport i = s.fport i := rfl
@[simp] theorem State.updCluster_at_fport (s : State) (k i : Nat) (g : Cluster → Cluster) : (s.updCluster k g).fport i = s.fport i := rfl
@[simp] theorem State.setCluster_at_bay (s : State) (k i : Nat) (x : Cluster) : (s.setCluster k x).bay i = s.bay i := rfl
@[simp] theorem State.updCluster_at_bay (s : State) (k i : Nat) (g : Cluster → Cluster) : (s.updCluster k g).bay i = s.bay i := rfl
@[simp] theorem State.setCluster_at_ring (s : State) (k i : Nat) (x : Cluster) : (s.setCluster k x).ring i = s.ring i := rfl
@[simp] theorem State.updCluster_at_ring (s : State) (k i : Nat) (g : Cluster → Cluster) : (s.updCluster k g).ring i = s.ring i := rfl

/-! ### Field -/

@[simp] theorem State.setField_pending (s : State) (n : Nat) (x : Field) : (s.setField n x).pending = s.pending := rfl
@[simp] theorem State.updField_pending (s : State) (n : Nat) (g : Field → Field) : (s.updField n g).pending = s.pending := rfl
@[simp] theorem State.setField_cores (s : State) (n : Nat) (x : Field) : (s.setField n x).cores = s.cores := rfl
@[simp] theorem State.updField_cores (s : State) (n : Nat) (g : Field → Field) : (s.updField n g).cores = s.cores := rfl
@[simp] theorem State.setField_routers (s : State) (n : Nat) (x : Field) : (s.setField n x).routers = s.routers := rfl
@[simp] theorem State.updField_routers (s : State) (n : Nat) (g : Field → Field) : (s.updField n g).routers = s.routers := rfl
@[simp] theorem State.setField_clusters (s : State) (n : Nat) (x : Field) : (s.setField n x).clusters = s.clusters := rfl
@[simp] theorem State.updField_clusters (s : State) (n : Nat) (g : Field → Field) : (s.updField n g).clusters = s.clusters := rfl
@[simp] theorem State.setField_formes (s : State) (n : Nat) (x : Field) : (s.setField n x).formes = s.formes := rfl
@[simp] theorem State.updField_formes (s : State) (n : Nat) (g : Field → Field) : (s.updField n g).formes = s.formes := rfl
@[simp] theorem State.setField_stations (s : State) (n : Nat) (x : Field) : (s.setField n x).stations = s.stations := rfl
@[simp] theorem State.updField_stations (s : State) (n : Nat) (g : Field → Field) : (s.updField n g).stations = s.stations := rfl
@[simp] theorem State.setField_fports (s : State) (n : Nat) (x : Field) : (s.setField n x).fports = s.fports := rfl
@[simp] theorem State.updField_fports (s : State) (n : Nat) (g : Field → Field) : (s.updField n g).fports = s.fports := rfl
@[simp] theorem State.setField_bays (s : State) (n : Nat) (x : Field) : (s.setField n x).bays = s.bays := rfl
@[simp] theorem State.updField_bays (s : State) (n : Nat) (g : Field → Field) : (s.updField n g).bays = s.bays := rfl
@[simp] theorem State.setField_rings (s : State) (n : Nat) (x : Field) : (s.setField n x).rings = s.rings := rfl
@[simp] theorem State.updField_rings (s : State) (n : Nat) (g : Field → Field) : (s.updField n g).rings = s.rings := rfl
@[simp] theorem State.setField_reports (s : State) (n : Nat) (x : Field) : (s.setField n x).reports = s.reports := rfl
@[simp] theorem State.updField_reports (s : State) (n : Nat) (g : Field → Field) : (s.updField n g).reports = s.reports := rfl
@[simp] theorem State.setField_hellbox (s : State) (n : Nat) (x : Field) : (s.setField n x).hellbox = s.hellbox := rfl
@[simp] theorem State.updField_hellbox (s : State) (n : Nat) (g : Field → Field) : (s.updField n g).hellbox = s.hellbox := rfl
@[simp] theorem State.setField_columns (s : State) (n : Nat) (x : Field) : (s.setField n x).columns = s.columns := rfl
@[simp] theorem State.updField_columns (s : State) (n : Nat) (g : Field → Field) : (s.updField n g).columns = s.columns := rfl
@[simp] theorem State.setField_mapGen (s : State) (n : Nat) (x : Field) : (s.setField n x).mapGen = s.mapGen := rfl
@[simp] theorem State.updField_mapGen (s : State) (n : Nat) (g : Field → Field) : (s.updField n g).mapGen = s.mapGen := rfl
@[simp] theorem State.setField_enable (s : State) (n : Nat) (x : Field) : (s.setField n x).enable = s.enable := rfl
@[simp] theorem State.updField_enable (s : State) (n : Nat) (g : Field → Field) : (s.updField n g).enable = s.enable := rfl
@[simp] theorem State.setField_boot (s : State) (n : Nat) (x : Field) : (s.setField n x).boot = s.boot := rfl
@[simp] theorem State.updField_boot (s : State) (n : Nat) (g : Field → Field) : (s.updField n g).boot = s.boot := rfl
@[simp] theorem State.setField_phys (s : State) (n : Nat) (x : Field) : (s.setField n x).phys = s.phys := rfl
@[simp] theorem State.updField_phys (s : State) (n : Nat) (g : Field → Field) : (s.updField n g).phys = s.phys := rfl
@[simp] theorem State.setField_plan (s : State) (n : Nat) (x : Field) : (s.setField n x).plan = s.plan := rfl
@[simp] theorem State.updField_plan (s : State) (n : Nat) (g : Field → Field) : (s.updField n g).plan = s.plan := rfl
@[simp] theorem State.setField_mgmt (s : State) (n : Nat) (x : Field) : (s.setField n x).mgmt = s.mgmt := rfl
@[simp] theorem State.updField_mgmt (s : State) (n : Nat) (g : Field → Field) : (s.updField n g).mgmt = s.mgmt := rfl
@[simp] theorem State.setField_recorder (s : State) (n : Nat) (x : Field) : (s.setField n x).recorder = s.recorder := rfl
@[simp] theorem State.updField_recorder (s : State) (n : Nat) (g : Field → Field) : (s.updField n g).recorder = s.recorder := rfl
@[simp] theorem State.setField_regs (s : State) (n : Nat) (x : Field) : (s.setField n x).regs = s.regs := rfl
@[simp] theorem State.updField_regs (s : State) (n : Nat) (g : Field → Field) : (s.updField n g).regs = s.regs := rfl
@[simp] theorem State.setField_clocks (s : State) (n : Nat) (x : Field) : (s.setField n x).clocks = s.clocks := rfl
@[simp] theorem State.updField_clocks (s : State) (n : Nat) (g : Field → Field) : (s.updField n g).clocks = s.clocks := rfl
@[simp] theorem State.setField_power (s : State) (n : Nat) (x : Field) : (s.setField n x).power = s.power := rfl
@[simp] theorem State.updField_power (s : State) (n : Nat) (g : Field → Field) : (s.updField n g).power = s.power := rfl
@[simp] theorem State.setField_hostMem (s : State) (n : Nat) (x : Field) : (s.setField n x).hostMem = s.hostMem := rfl
@[simp] theorem State.updField_hostMem (s : State) (n : Nat) (g : Field → Field) : (s.updField n g).hostMem = s.hostMem := rfl
@[simp] theorem State.setField_hostPoison (s : State) (n : Nat) (x : Field) : (s.setField n x).hostPoison = s.hostPoison := rfl
@[simp] theorem State.updField_hostPoison (s : State) (n : Nat) (g : Field → Field) : (s.updField n g).hostPoison = s.hostPoison := rfl
@[simp] theorem State.setField_msix (s : State) (n : Nat) (x : Field) : (s.setField n x).msix = s.msix := rfl
@[simp] theorem State.updField_msix (s : State) (n : Nat) (g : Field → Field) : (s.updField n g).msix = s.msix := rfl
@[simp] theorem State.setField_cycles (s : State) (n : Nat) (x : Field) : (s.setField n x).cycles = s.cycles := rfl
@[simp] theorem State.updField_cycles (s : State) (n : Nat) (g : Field → Field) : (s.updField n g).cycles = s.cycles := rfl
@[simp] theorem State.setField_free (s : State) (n : Nat) (x : Field) : (s.setField n x).free = s.free := rfl
@[simp] theorem State.updField_free (s : State) (n : Nat) (g : Field → Field) : (s.updField n g).free = s.free := rfl
@[simp] theorem State.setField_at_core (s : State) (n i : Nat) (x : Field) : (s.setField n x).core i = s.core i := rfl
@[simp] theorem State.updField_at_core (s : State) (n i : Nat) (g : Field → Field) : (s.updField n g).core i = s.core i := rfl
@[simp] theorem State.setField_at_router (s : State) (n i : Nat) (x : Field) : (s.setField n x).router i = s.router i := rfl
@[simp] theorem State.updField_at_router (s : State) (n i : Nat) (g : Field → Field) : (s.updField n g).router i = s.router i := rfl
@[simp] theorem State.setField_at_cluster (s : State) (n i : Nat) (x : Field) : (s.setField n x).cluster i = s.cluster i := rfl
@[simp] theorem State.updField_at_cluster (s : State) (n i : Nat) (g : Field → Field) : (s.updField n g).cluster i = s.cluster i := rfl
@[simp] theorem State.setField_at_forme (s : State) (n i : Nat) (x : Field) : (s.setField n x).forme i = s.forme i := rfl
@[simp] theorem State.updField_at_forme (s : State) (n i : Nat) (g : Field → Field) : (s.updField n g).forme i = s.forme i := rfl
@[simp] theorem State.setField_at_station (s : State) (n i : Nat) (x : Field) : (s.setField n x).station i = s.station i := rfl
@[simp] theorem State.updField_at_station (s : State) (n i : Nat) (g : Field → Field) : (s.updField n g).station i = s.station i := rfl
@[simp] theorem State.setField_at_fport (s : State) (n i : Nat) (x : Field) : (s.setField n x).fport i = s.fport i := rfl
@[simp] theorem State.updField_at_fport (s : State) (n i : Nat) (g : Field → Field) : (s.updField n g).fport i = s.fport i := rfl
@[simp] theorem State.setField_at_bay (s : State) (n i : Nat) (x : Field) : (s.setField n x).bay i = s.bay i := rfl
@[simp] theorem State.updField_at_bay (s : State) (n i : Nat) (g : Field → Field) : (s.updField n g).bay i = s.bay i := rfl
@[simp] theorem State.setField_at_ring (s : State) (n i : Nat) (x : Field) : (s.setField n x).ring i = s.ring i := rfl
@[simp] theorem State.updField_at_ring (s : State) (n i : Nat) (g : Field → Field) : (s.updField n g).ring i = s.ring i := rfl

/-! ### Forme -/

@[simp] theorem State.setForme_pending (s : State) (n : Nat) (x : Forme) : (s.setForme n x).pending = s.pending := rfl
@[simp] theorem State.updForme_pending (s : State) (n : Nat) (g : Forme → Forme) : (s.updForme n g).pending = s.pending := rfl
@[simp] theorem State.setForme_cores (s : State) (n : Nat) (x : Forme) : (s.setForme n x).cores = s.cores := rfl
@[simp] theorem State.updForme_cores (s : State) (n : Nat) (g : Forme → Forme) : (s.updForme n g).cores = s.cores := rfl
@[simp] theorem State.setForme_routers (s : State) (n : Nat) (x : Forme) : (s.setForme n x).routers = s.routers := rfl
@[simp] theorem State.updForme_routers (s : State) (n : Nat) (g : Forme → Forme) : (s.updForme n g).routers = s.routers := rfl
@[simp] theorem State.setForme_clusters (s : State) (n : Nat) (x : Forme) : (s.setForme n x).clusters = s.clusters := rfl
@[simp] theorem State.updForme_clusters (s : State) (n : Nat) (g : Forme → Forme) : (s.updForme n g).clusters = s.clusters := rfl
@[simp] theorem State.setForme_fields (s : State) (n : Nat) (x : Forme) : (s.setForme n x).fields = s.fields := rfl
@[simp] theorem State.updForme_fields (s : State) (n : Nat) (g : Forme → Forme) : (s.updForme n g).fields = s.fields := rfl
@[simp] theorem State.setForme_stations (s : State) (n : Nat) (x : Forme) : (s.setForme n x).stations = s.stations := rfl
@[simp] theorem State.updForme_stations (s : State) (n : Nat) (g : Forme → Forme) : (s.updForme n g).stations = s.stations := rfl
@[simp] theorem State.setForme_fports (s : State) (n : Nat) (x : Forme) : (s.setForme n x).fports = s.fports := rfl
@[simp] theorem State.updForme_fports (s : State) (n : Nat) (g : Forme → Forme) : (s.updForme n g).fports = s.fports := rfl
@[simp] theorem State.setForme_bays (s : State) (n : Nat) (x : Forme) : (s.setForme n x).bays = s.bays := rfl
@[simp] theorem State.updForme_bays (s : State) (n : Nat) (g : Forme → Forme) : (s.updForme n g).bays = s.bays := rfl
@[simp] theorem State.setForme_rings (s : State) (n : Nat) (x : Forme) : (s.setForme n x).rings = s.rings := rfl
@[simp] theorem State.updForme_rings (s : State) (n : Nat) (g : Forme → Forme) : (s.updForme n g).rings = s.rings := rfl
@[simp] theorem State.setForme_reports (s : State) (n : Nat) (x : Forme) : (s.setForme n x).reports = s.reports := rfl
@[simp] theorem State.updForme_reports (s : State) (n : Nat) (g : Forme → Forme) : (s.updForme n g).reports = s.reports := rfl
@[simp] theorem State.setForme_hellbox (s : State) (n : Nat) (x : Forme) : (s.setForme n x).hellbox = s.hellbox := rfl
@[simp] theorem State.updForme_hellbox (s : State) (n : Nat) (g : Forme → Forme) : (s.updForme n g).hellbox = s.hellbox := rfl
@[simp] theorem State.setForme_columns (s : State) (n : Nat) (x : Forme) : (s.setForme n x).columns = s.columns := rfl
@[simp] theorem State.updForme_columns (s : State) (n : Nat) (g : Forme → Forme) : (s.updForme n g).columns = s.columns := rfl
@[simp] theorem State.setForme_mapGen (s : State) (n : Nat) (x : Forme) : (s.setForme n x).mapGen = s.mapGen := rfl
@[simp] theorem State.updForme_mapGen (s : State) (n : Nat) (g : Forme → Forme) : (s.updForme n g).mapGen = s.mapGen := rfl
@[simp] theorem State.setForme_enable (s : State) (n : Nat) (x : Forme) : (s.setForme n x).enable = s.enable := rfl
@[simp] theorem State.updForme_enable (s : State) (n : Nat) (g : Forme → Forme) : (s.updForme n g).enable = s.enable := rfl
@[simp] theorem State.setForme_boot (s : State) (n : Nat) (x : Forme) : (s.setForme n x).boot = s.boot := rfl
@[simp] theorem State.updForme_boot (s : State) (n : Nat) (g : Forme → Forme) : (s.updForme n g).boot = s.boot := rfl
@[simp] theorem State.setForme_phys (s : State) (n : Nat) (x : Forme) : (s.setForme n x).phys = s.phys := rfl
@[simp] theorem State.updForme_phys (s : State) (n : Nat) (g : Forme → Forme) : (s.updForme n g).phys = s.phys := rfl
@[simp] theorem State.setForme_plan (s : State) (n : Nat) (x : Forme) : (s.setForme n x).plan = s.plan := rfl
@[simp] theorem State.updForme_plan (s : State) (n : Nat) (g : Forme → Forme) : (s.updForme n g).plan = s.plan := rfl
@[simp] theorem State.setForme_mgmt (s : State) (n : Nat) (x : Forme) : (s.setForme n x).mgmt = s.mgmt := rfl
@[simp] theorem State.updForme_mgmt (s : State) (n : Nat) (g : Forme → Forme) : (s.updForme n g).mgmt = s.mgmt := rfl
@[simp] theorem State.setForme_recorder (s : State) (n : Nat) (x : Forme) : (s.setForme n x).recorder = s.recorder := rfl
@[simp] theorem State.updForme_recorder (s : State) (n : Nat) (g : Forme → Forme) : (s.updForme n g).recorder = s.recorder := rfl
@[simp] theorem State.setForme_regs (s : State) (n : Nat) (x : Forme) : (s.setForme n x).regs = s.regs := rfl
@[simp] theorem State.updForme_regs (s : State) (n : Nat) (g : Forme → Forme) : (s.updForme n g).regs = s.regs := rfl
@[simp] theorem State.setForme_clocks (s : State) (n : Nat) (x : Forme) : (s.setForme n x).clocks = s.clocks := rfl
@[simp] theorem State.updForme_clocks (s : State) (n : Nat) (g : Forme → Forme) : (s.updForme n g).clocks = s.clocks := rfl
@[simp] theorem State.setForme_power (s : State) (n : Nat) (x : Forme) : (s.setForme n x).power = s.power := rfl
@[simp] theorem State.updForme_power (s : State) (n : Nat) (g : Forme → Forme) : (s.updForme n g).power = s.power := rfl
@[simp] theorem State.setForme_hostMem (s : State) (n : Nat) (x : Forme) : (s.setForme n x).hostMem = s.hostMem := rfl
@[simp] theorem State.updForme_hostMem (s : State) (n : Nat) (g : Forme → Forme) : (s.updForme n g).hostMem = s.hostMem := rfl
@[simp] theorem State.setForme_hostPoison (s : State) (n : Nat) (x : Forme) : (s.setForme n x).hostPoison = s.hostPoison := rfl
@[simp] theorem State.updForme_hostPoison (s : State) (n : Nat) (g : Forme → Forme) : (s.updForme n g).hostPoison = s.hostPoison := rfl
@[simp] theorem State.setForme_msix (s : State) (n : Nat) (x : Forme) : (s.setForme n x).msix = s.msix := rfl
@[simp] theorem State.updForme_msix (s : State) (n : Nat) (g : Forme → Forme) : (s.updForme n g).msix = s.msix := rfl
@[simp] theorem State.setForme_cycles (s : State) (n : Nat) (x : Forme) : (s.setForme n x).cycles = s.cycles := rfl
@[simp] theorem State.updForme_cycles (s : State) (n : Nat) (g : Forme → Forme) : (s.updForme n g).cycles = s.cycles := rfl
@[simp] theorem State.setForme_free (s : State) (n : Nat) (x : Forme) : (s.setForme n x).free = s.free := rfl
@[simp] theorem State.updForme_free (s : State) (n : Nat) (g : Forme → Forme) : (s.updForme n g).free = s.free := rfl
@[simp] theorem State.setForme_at_core (s : State) (n i : Nat) (x : Forme) : (s.setForme n x).core i = s.core i := rfl
@[simp] theorem State.updForme_at_core (s : State) (n i : Nat) (g : Forme → Forme) : (s.updForme n g).core i = s.core i := rfl
@[simp] theorem State.setForme_at_router (s : State) (n i : Nat) (x : Forme) : (s.setForme n x).router i = s.router i := rfl
@[simp] theorem State.updForme_at_router (s : State) (n i : Nat) (g : Forme → Forme) : (s.updForme n g).router i = s.router i := rfl
@[simp] theorem State.setForme_at_cluster (s : State) (n i : Nat) (x : Forme) : (s.setForme n x).cluster i = s.cluster i := rfl
@[simp] theorem State.updForme_at_cluster (s : State) (n i : Nat) (g : Forme → Forme) : (s.updForme n g).cluster i = s.cluster i := rfl
@[simp] theorem State.setForme_at_field (s : State) (n i : Nat) (x : Forme) : (s.setForme n x).field i = s.field i := rfl
@[simp] theorem State.updForme_at_field (s : State) (n i : Nat) (g : Forme → Forme) : (s.updForme n g).field i = s.field i := rfl
@[simp] theorem State.setForme_at_station (s : State) (n i : Nat) (x : Forme) : (s.setForme n x).station i = s.station i := rfl
@[simp] theorem State.updForme_at_station (s : State) (n i : Nat) (g : Forme → Forme) : (s.updForme n g).station i = s.station i := rfl
@[simp] theorem State.setForme_at_fport (s : State) (n i : Nat) (x : Forme) : (s.setForme n x).fport i = s.fport i := rfl
@[simp] theorem State.updForme_at_fport (s : State) (n i : Nat) (g : Forme → Forme) : (s.updForme n g).fport i = s.fport i := rfl
@[simp] theorem State.setForme_at_bay (s : State) (n i : Nat) (x : Forme) : (s.setForme n x).bay i = s.bay i := rfl
@[simp] theorem State.updForme_at_bay (s : State) (n i : Nat) (g : Forme → Forme) : (s.updForme n g).bay i = s.bay i := rfl
@[simp] theorem State.setForme_at_ring (s : State) (n i : Nat) (x : Forme) : (s.setForme n x).ring i = s.ring i := rfl
@[simp] theorem State.updForme_at_ring (s : State) (n i : Nat) (g : Forme → Forme) : (s.updForme n g).ring i = s.ring i := rfl

/-! ### Station -/

@[simp] theorem State.setStation_pending (s : State) (n : Nat) (x : Station) : (s.setStation n x).pending = s.pending := rfl
@[simp] theorem State.updStation_pending (s : State) (n : Nat) (g : Station → Station) : (s.updStation n g).pending = s.pending := rfl
@[simp] theorem State.setStation_cores (s : State) (n : Nat) (x : Station) : (s.setStation n x).cores = s.cores := rfl
@[simp] theorem State.updStation_cores (s : State) (n : Nat) (g : Station → Station) : (s.updStation n g).cores = s.cores := rfl
@[simp] theorem State.setStation_routers (s : State) (n : Nat) (x : Station) : (s.setStation n x).routers = s.routers := rfl
@[simp] theorem State.updStation_routers (s : State) (n : Nat) (g : Station → Station) : (s.updStation n g).routers = s.routers := rfl
@[simp] theorem State.setStation_clusters (s : State) (n : Nat) (x : Station) : (s.setStation n x).clusters = s.clusters := rfl
@[simp] theorem State.updStation_clusters (s : State) (n : Nat) (g : Station → Station) : (s.updStation n g).clusters = s.clusters := rfl
@[simp] theorem State.setStation_fields (s : State) (n : Nat) (x : Station) : (s.setStation n x).fields = s.fields := rfl
@[simp] theorem State.updStation_fields (s : State) (n : Nat) (g : Station → Station) : (s.updStation n g).fields = s.fields := rfl
@[simp] theorem State.setStation_formes (s : State) (n : Nat) (x : Station) : (s.setStation n x).formes = s.formes := rfl
@[simp] theorem State.updStation_formes (s : State) (n : Nat) (g : Station → Station) : (s.updStation n g).formes = s.formes := rfl
@[simp] theorem State.setStation_fports (s : State) (n : Nat) (x : Station) : (s.setStation n x).fports = s.fports := rfl
@[simp] theorem State.updStation_fports (s : State) (n : Nat) (g : Station → Station) : (s.updStation n g).fports = s.fports := rfl
@[simp] theorem State.setStation_bays (s : State) (n : Nat) (x : Station) : (s.setStation n x).bays = s.bays := rfl
@[simp] theorem State.updStation_bays (s : State) (n : Nat) (g : Station → Station) : (s.updStation n g).bays = s.bays := rfl
@[simp] theorem State.setStation_rings (s : State) (n : Nat) (x : Station) : (s.setStation n x).rings = s.rings := rfl
@[simp] theorem State.updStation_rings (s : State) (n : Nat) (g : Station → Station) : (s.updStation n g).rings = s.rings := rfl
@[simp] theorem State.setStation_reports (s : State) (n : Nat) (x : Station) : (s.setStation n x).reports = s.reports := rfl
@[simp] theorem State.updStation_reports (s : State) (n : Nat) (g : Station → Station) : (s.updStation n g).reports = s.reports := rfl
@[simp] theorem State.setStation_hellbox (s : State) (n : Nat) (x : Station) : (s.setStation n x).hellbox = s.hellbox := rfl
@[simp] theorem State.updStation_hellbox (s : State) (n : Nat) (g : Station → Station) : (s.updStation n g).hellbox = s.hellbox := rfl
@[simp] theorem State.setStation_columns (s : State) (n : Nat) (x : Station) : (s.setStation n x).columns = s.columns := rfl
@[simp] theorem State.updStation_columns (s : State) (n : Nat) (g : Station → Station) : (s.updStation n g).columns = s.columns := rfl
@[simp] theorem State.setStation_mapGen (s : State) (n : Nat) (x : Station) : (s.setStation n x).mapGen = s.mapGen := rfl
@[simp] theorem State.updStation_mapGen (s : State) (n : Nat) (g : Station → Station) : (s.updStation n g).mapGen = s.mapGen := rfl
@[simp] theorem State.setStation_enable (s : State) (n : Nat) (x : Station) : (s.setStation n x).enable = s.enable := rfl
@[simp] theorem State.updStation_enable (s : State) (n : Nat) (g : Station → Station) : (s.updStation n g).enable = s.enable := rfl
@[simp] theorem State.setStation_boot (s : State) (n : Nat) (x : Station) : (s.setStation n x).boot = s.boot := rfl
@[simp] theorem State.updStation_boot (s : State) (n : Nat) (g : Station → Station) : (s.updStation n g).boot = s.boot := rfl
@[simp] theorem State.setStation_phys (s : State) (n : Nat) (x : Station) : (s.setStation n x).phys = s.phys := rfl
@[simp] theorem State.updStation_phys (s : State) (n : Nat) (g : Station → Station) : (s.updStation n g).phys = s.phys := rfl
@[simp] theorem State.setStation_plan (s : State) (n : Nat) (x : Station) : (s.setStation n x).plan = s.plan := rfl
@[simp] theorem State.updStation_plan (s : State) (n : Nat) (g : Station → Station) : (s.updStation n g).plan = s.plan := rfl
@[simp] theorem State.setStation_mgmt (s : State) (n : Nat) (x : Station) : (s.setStation n x).mgmt = s.mgmt := rfl
@[simp] theorem State.updStation_mgmt (s : State) (n : Nat) (g : Station → Station) : (s.updStation n g).mgmt = s.mgmt := rfl
@[simp] theorem State.setStation_recorder (s : State) (n : Nat) (x : Station) : (s.setStation n x).recorder = s.recorder := rfl
@[simp] theorem State.updStation_recorder (s : State) (n : Nat) (g : Station → Station) : (s.updStation n g).recorder = s.recorder := rfl
@[simp] theorem State.setStation_regs (s : State) (n : Nat) (x : Station) : (s.setStation n x).regs = s.regs := rfl
@[simp] theorem State.updStation_regs (s : State) (n : Nat) (g : Station → Station) : (s.updStation n g).regs = s.regs := rfl
@[simp] theorem State.setStation_clocks (s : State) (n : Nat) (x : Station) : (s.setStation n x).clocks = s.clocks := rfl
@[simp] theorem State.updStation_clocks (s : State) (n : Nat) (g : Station → Station) : (s.updStation n g).clocks = s.clocks := rfl
@[simp] theorem State.setStation_power (s : State) (n : Nat) (x : Station) : (s.setStation n x).power = s.power := rfl
@[simp] theorem State.updStation_power (s : State) (n : Nat) (g : Station → Station) : (s.updStation n g).power = s.power := rfl
@[simp] theorem State.setStation_hostMem (s : State) (n : Nat) (x : Station) : (s.setStation n x).hostMem = s.hostMem := rfl
@[simp] theorem State.updStation_hostMem (s : State) (n : Nat) (g : Station → Station) : (s.updStation n g).hostMem = s.hostMem := rfl
@[simp] theorem State.setStation_hostPoison (s : State) (n : Nat) (x : Station) : (s.setStation n x).hostPoison = s.hostPoison := rfl
@[simp] theorem State.updStation_hostPoison (s : State) (n : Nat) (g : Station → Station) : (s.updStation n g).hostPoison = s.hostPoison := rfl
@[simp] theorem State.setStation_msix (s : State) (n : Nat) (x : Station) : (s.setStation n x).msix = s.msix := rfl
@[simp] theorem State.updStation_msix (s : State) (n : Nat) (g : Station → Station) : (s.updStation n g).msix = s.msix := rfl
@[simp] theorem State.setStation_cycles (s : State) (n : Nat) (x : Station) : (s.setStation n x).cycles = s.cycles := rfl
@[simp] theorem State.updStation_cycles (s : State) (n : Nat) (g : Station → Station) : (s.updStation n g).cycles = s.cycles := rfl
@[simp] theorem State.setStation_free (s : State) (n : Nat) (x : Station) : (s.setStation n x).free = s.free := rfl
@[simp] theorem State.updStation_free (s : State) (n : Nat) (g : Station → Station) : (s.updStation n g).free = s.free := rfl
@[simp] theorem State.setStation_at_core (s : State) (n i : Nat) (x : Station) : (s.setStation n x).core i = s.core i := rfl
@[simp] theorem State.updStation_at_core (s : State) (n i : Nat) (g : Station → Station) : (s.updStation n g).core i = s.core i := rfl
@[simp] theorem State.setStation_at_router (s : State) (n i : Nat) (x : Station) : (s.setStation n x).router i = s.router i := rfl
@[simp] theorem State.updStation_at_router (s : State) (n i : Nat) (g : Station → Station) : (s.updStation n g).router i = s.router i := rfl
@[simp] theorem State.setStation_at_cluster (s : State) (n i : Nat) (x : Station) : (s.setStation n x).cluster i = s.cluster i := rfl
@[simp] theorem State.updStation_at_cluster (s : State) (n i : Nat) (g : Station → Station) : (s.updStation n g).cluster i = s.cluster i := rfl
@[simp] theorem State.setStation_at_field (s : State) (n i : Nat) (x : Station) : (s.setStation n x).field i = s.field i := rfl
@[simp] theorem State.updStation_at_field (s : State) (n i : Nat) (g : Station → Station) : (s.updStation n g).field i = s.field i := rfl
@[simp] theorem State.setStation_at_forme (s : State) (n i : Nat) (x : Station) : (s.setStation n x).forme i = s.forme i := rfl
@[simp] theorem State.updStation_at_forme (s : State) (n i : Nat) (g : Station → Station) : (s.updStation n g).forme i = s.forme i := rfl
@[simp] theorem State.setStation_at_fport (s : State) (n i : Nat) (x : Station) : (s.setStation n x).fport i = s.fport i := rfl
@[simp] theorem State.updStation_at_fport (s : State) (n i : Nat) (g : Station → Station) : (s.updStation n g).fport i = s.fport i := rfl
@[simp] theorem State.setStation_at_bay (s : State) (n i : Nat) (x : Station) : (s.setStation n x).bay i = s.bay i := rfl
@[simp] theorem State.updStation_at_bay (s : State) (n i : Nat) (g : Station → Station) : (s.updStation n g).bay i = s.bay i := rfl
@[simp] theorem State.setStation_at_ring (s : State) (n i : Nat) (x : Station) : (s.setStation n x).ring i = s.ring i := rfl
@[simp] theorem State.updStation_at_ring (s : State) (n i : Nat) (g : Station → Station) : (s.updStation n g).ring i = s.ring i := rfl

/-! ### FPort -/

@[simp] theorem State.setFport_pending (s : State) (n : Nat) (x : FPort) : (s.setFport n x).pending = s.pending := rfl
@[simp] theorem State.updFport_pending (s : State) (n : Nat) (g : FPort → FPort) : (s.updFport n g).pending = s.pending := rfl
@[simp] theorem State.setFport_cores (s : State) (n : Nat) (x : FPort) : (s.setFport n x).cores = s.cores := rfl
@[simp] theorem State.updFport_cores (s : State) (n : Nat) (g : FPort → FPort) : (s.updFport n g).cores = s.cores := rfl
@[simp] theorem State.setFport_routers (s : State) (n : Nat) (x : FPort) : (s.setFport n x).routers = s.routers := rfl
@[simp] theorem State.updFport_routers (s : State) (n : Nat) (g : FPort → FPort) : (s.updFport n g).routers = s.routers := rfl
@[simp] theorem State.setFport_clusters (s : State) (n : Nat) (x : FPort) : (s.setFport n x).clusters = s.clusters := rfl
@[simp] theorem State.updFport_clusters (s : State) (n : Nat) (g : FPort → FPort) : (s.updFport n g).clusters = s.clusters := rfl
@[simp] theorem State.setFport_fields (s : State) (n : Nat) (x : FPort) : (s.setFport n x).fields = s.fields := rfl
@[simp] theorem State.updFport_fields (s : State) (n : Nat) (g : FPort → FPort) : (s.updFport n g).fields = s.fields := rfl
@[simp] theorem State.setFport_formes (s : State) (n : Nat) (x : FPort) : (s.setFport n x).formes = s.formes := rfl
@[simp] theorem State.updFport_formes (s : State) (n : Nat) (g : FPort → FPort) : (s.updFport n g).formes = s.formes := rfl
@[simp] theorem State.setFport_stations (s : State) (n : Nat) (x : FPort) : (s.setFport n x).stations = s.stations := rfl
@[simp] theorem State.updFport_stations (s : State) (n : Nat) (g : FPort → FPort) : (s.updFport n g).stations = s.stations := rfl
@[simp] theorem State.setFport_bays (s : State) (n : Nat) (x : FPort) : (s.setFport n x).bays = s.bays := rfl
@[simp] theorem State.updFport_bays (s : State) (n : Nat) (g : FPort → FPort) : (s.updFport n g).bays = s.bays := rfl
@[simp] theorem State.setFport_rings (s : State) (n : Nat) (x : FPort) : (s.setFport n x).rings = s.rings := rfl
@[simp] theorem State.updFport_rings (s : State) (n : Nat) (g : FPort → FPort) : (s.updFport n g).rings = s.rings := rfl
@[simp] theorem State.setFport_reports (s : State) (n : Nat) (x : FPort) : (s.setFport n x).reports = s.reports := rfl
@[simp] theorem State.updFport_reports (s : State) (n : Nat) (g : FPort → FPort) : (s.updFport n g).reports = s.reports := rfl
@[simp] theorem State.setFport_hellbox (s : State) (n : Nat) (x : FPort) : (s.setFport n x).hellbox = s.hellbox := rfl
@[simp] theorem State.updFport_hellbox (s : State) (n : Nat) (g : FPort → FPort) : (s.updFport n g).hellbox = s.hellbox := rfl
@[simp] theorem State.setFport_columns (s : State) (n : Nat) (x : FPort) : (s.setFport n x).columns = s.columns := rfl
@[simp] theorem State.updFport_columns (s : State) (n : Nat) (g : FPort → FPort) : (s.updFport n g).columns = s.columns := rfl
@[simp] theorem State.setFport_mapGen (s : State) (n : Nat) (x : FPort) : (s.setFport n x).mapGen = s.mapGen := rfl
@[simp] theorem State.updFport_mapGen (s : State) (n : Nat) (g : FPort → FPort) : (s.updFport n g).mapGen = s.mapGen := rfl
@[simp] theorem State.setFport_enable (s : State) (n : Nat) (x : FPort) : (s.setFport n x).enable = s.enable := rfl
@[simp] theorem State.updFport_enable (s : State) (n : Nat) (g : FPort → FPort) : (s.updFport n g).enable = s.enable := rfl
@[simp] theorem State.setFport_boot (s : State) (n : Nat) (x : FPort) : (s.setFport n x).boot = s.boot := rfl
@[simp] theorem State.updFport_boot (s : State) (n : Nat) (g : FPort → FPort) : (s.updFport n g).boot = s.boot := rfl
@[simp] theorem State.setFport_phys (s : State) (n : Nat) (x : FPort) : (s.setFport n x).phys = s.phys := rfl
@[simp] theorem State.updFport_phys (s : State) (n : Nat) (g : FPort → FPort) : (s.updFport n g).phys = s.phys := rfl
@[simp] theorem State.setFport_plan (s : State) (n : Nat) (x : FPort) : (s.setFport n x).plan = s.plan := rfl
@[simp] theorem State.updFport_plan (s : State) (n : Nat) (g : FPort → FPort) : (s.updFport n g).plan = s.plan := rfl
@[simp] theorem State.setFport_mgmt (s : State) (n : Nat) (x : FPort) : (s.setFport n x).mgmt = s.mgmt := rfl
@[simp] theorem State.updFport_mgmt (s : State) (n : Nat) (g : FPort → FPort) : (s.updFport n g).mgmt = s.mgmt := rfl
@[simp] theorem State.setFport_recorder (s : State) (n : Nat) (x : FPort) : (s.setFport n x).recorder = s.recorder := rfl
@[simp] theorem State.updFport_recorder (s : State) (n : Nat) (g : FPort → FPort) : (s.updFport n g).recorder = s.recorder := rfl
@[simp] theorem State.setFport_regs (s : State) (n : Nat) (x : FPort) : (s.setFport n x).regs = s.regs := rfl
@[simp] theorem State.updFport_regs (s : State) (n : Nat) (g : FPort → FPort) : (s.updFport n g).regs = s.regs := rfl
@[simp] theorem State.setFport_clocks (s : State) (n : Nat) (x : FPort) : (s.setFport n x).clocks = s.clocks := rfl
@[simp] theorem State.updFport_clocks (s : State) (n : Nat) (g : FPort → FPort) : (s.updFport n g).clocks = s.clocks := rfl
@[simp] theorem State.setFport_power (s : State) (n : Nat) (x : FPort) : (s.setFport n x).power = s.power := rfl
@[simp] theorem State.updFport_power (s : State) (n : Nat) (g : FPort → FPort) : (s.updFport n g).power = s.power := rfl
@[simp] theorem State.setFport_hostMem (s : State) (n : Nat) (x : FPort) : (s.setFport n x).hostMem = s.hostMem := rfl
@[simp] theorem State.updFport_hostMem (s : State) (n : Nat) (g : FPort → FPort) : (s.updFport n g).hostMem = s.hostMem := rfl
@[simp] theorem State.setFport_hostPoison (s : State) (n : Nat) (x : FPort) : (s.setFport n x).hostPoison = s.hostPoison := rfl
@[simp] theorem State.updFport_hostPoison (s : State) (n : Nat) (g : FPort → FPort) : (s.updFport n g).hostPoison = s.hostPoison := rfl
@[simp] theorem State.setFport_msix (s : State) (n : Nat) (x : FPort) : (s.setFport n x).msix = s.msix := rfl
@[simp] theorem State.updFport_msix (s : State) (n : Nat) (g : FPort → FPort) : (s.updFport n g).msix = s.msix := rfl
@[simp] theorem State.setFport_cycles (s : State) (n : Nat) (x : FPort) : (s.setFport n x).cycles = s.cycles := rfl
@[simp] theorem State.updFport_cycles (s : State) (n : Nat) (g : FPort → FPort) : (s.updFport n g).cycles = s.cycles := rfl
@[simp] theorem State.setFport_free (s : State) (n : Nat) (x : FPort) : (s.setFport n x).free = s.free := rfl
@[simp] theorem State.updFport_free (s : State) (n : Nat) (g : FPort → FPort) : (s.updFport n g).free = s.free := rfl
@[simp] theorem State.setFport_at_core (s : State) (n i : Nat) (x : FPort) : (s.setFport n x).core i = s.core i := rfl
@[simp] theorem State.updFport_at_core (s : State) (n i : Nat) (g : FPort → FPort) : (s.updFport n g).core i = s.core i := rfl
@[simp] theorem State.setFport_at_router (s : State) (n i : Nat) (x : FPort) : (s.setFport n x).router i = s.router i := rfl
@[simp] theorem State.updFport_at_router (s : State) (n i : Nat) (g : FPort → FPort) : (s.updFport n g).router i = s.router i := rfl
@[simp] theorem State.setFport_at_cluster (s : State) (n i : Nat) (x : FPort) : (s.setFport n x).cluster i = s.cluster i := rfl
@[simp] theorem State.updFport_at_cluster (s : State) (n i : Nat) (g : FPort → FPort) : (s.updFport n g).cluster i = s.cluster i := rfl
@[simp] theorem State.setFport_at_field (s : State) (n i : Nat) (x : FPort) : (s.setFport n x).field i = s.field i := rfl
@[simp] theorem State.updFport_at_field (s : State) (n i : Nat) (g : FPort → FPort) : (s.updFport n g).field i = s.field i := rfl
@[simp] theorem State.setFport_at_forme (s : State) (n i : Nat) (x : FPort) : (s.setFport n x).forme i = s.forme i := rfl
@[simp] theorem State.updFport_at_forme (s : State) (n i : Nat) (g : FPort → FPort) : (s.updFport n g).forme i = s.forme i := rfl
@[simp] theorem State.setFport_at_station (s : State) (n i : Nat) (x : FPort) : (s.setFport n x).station i = s.station i := rfl
@[simp] theorem State.updFport_at_station (s : State) (n i : Nat) (g : FPort → FPort) : (s.updFport n g).station i = s.station i := rfl
@[simp] theorem State.setFport_at_bay (s : State) (n i : Nat) (x : FPort) : (s.setFport n x).bay i = s.bay i := rfl
@[simp] theorem State.updFport_at_bay (s : State) (n i : Nat) (g : FPort → FPort) : (s.updFport n g).bay i = s.bay i := rfl
@[simp] theorem State.setFport_at_ring (s : State) (n i : Nat) (x : FPort) : (s.setFport n x).ring i = s.ring i := rfl
@[simp] theorem State.updFport_at_ring (s : State) (n i : Nat) (g : FPort → FPort) : (s.updFport n g).ring i = s.ring i := rfl

/-! ### Bay -/

@[simp] theorem State.setBay_pending (s : State) (n : Nat) (x : Bay) : (s.setBay n x).pending = s.pending := rfl
@[simp] theorem State.updBay_pending (s : State) (n : Nat) (g : Bay → Bay) : (s.updBay n g).pending = s.pending := rfl
@[simp] theorem State.setBay_cores (s : State) (n : Nat) (x : Bay) : (s.setBay n x).cores = s.cores := rfl
@[simp] theorem State.updBay_cores (s : State) (n : Nat) (g : Bay → Bay) : (s.updBay n g).cores = s.cores := rfl
@[simp] theorem State.setBay_routers (s : State) (n : Nat) (x : Bay) : (s.setBay n x).routers = s.routers := rfl
@[simp] theorem State.updBay_routers (s : State) (n : Nat) (g : Bay → Bay) : (s.updBay n g).routers = s.routers := rfl
@[simp] theorem State.setBay_clusters (s : State) (n : Nat) (x : Bay) : (s.setBay n x).clusters = s.clusters := rfl
@[simp] theorem State.updBay_clusters (s : State) (n : Nat) (g : Bay → Bay) : (s.updBay n g).clusters = s.clusters := rfl
@[simp] theorem State.setBay_fields (s : State) (n : Nat) (x : Bay) : (s.setBay n x).fields = s.fields := rfl
@[simp] theorem State.updBay_fields (s : State) (n : Nat) (g : Bay → Bay) : (s.updBay n g).fields = s.fields := rfl
@[simp] theorem State.setBay_formes (s : State) (n : Nat) (x : Bay) : (s.setBay n x).formes = s.formes := rfl
@[simp] theorem State.updBay_formes (s : State) (n : Nat) (g : Bay → Bay) : (s.updBay n g).formes = s.formes := rfl
@[simp] theorem State.setBay_stations (s : State) (n : Nat) (x : Bay) : (s.setBay n x).stations = s.stations := rfl
@[simp] theorem State.updBay_stations (s : State) (n : Nat) (g : Bay → Bay) : (s.updBay n g).stations = s.stations := rfl
@[simp] theorem State.setBay_fports (s : State) (n : Nat) (x : Bay) : (s.setBay n x).fports = s.fports := rfl
@[simp] theorem State.updBay_fports (s : State) (n : Nat) (g : Bay → Bay) : (s.updBay n g).fports = s.fports := rfl
@[simp] theorem State.setBay_rings (s : State) (n : Nat) (x : Bay) : (s.setBay n x).rings = s.rings := rfl
@[simp] theorem State.updBay_rings (s : State) (n : Nat) (g : Bay → Bay) : (s.updBay n g).rings = s.rings := rfl
@[simp] theorem State.setBay_reports (s : State) (n : Nat) (x : Bay) : (s.setBay n x).reports = s.reports := rfl
@[simp] theorem State.updBay_reports (s : State) (n : Nat) (g : Bay → Bay) : (s.updBay n g).reports = s.reports := rfl
@[simp] theorem State.setBay_hellbox (s : State) (n : Nat) (x : Bay) : (s.setBay n x).hellbox = s.hellbox := rfl
@[simp] theorem State.updBay_hellbox (s : State) (n : Nat) (g : Bay → Bay) : (s.updBay n g).hellbox = s.hellbox := rfl
@[simp] theorem State.setBay_columns (s : State) (n : Nat) (x : Bay) : (s.setBay n x).columns = s.columns := rfl
@[simp] theorem State.updBay_columns (s : State) (n : Nat) (g : Bay → Bay) : (s.updBay n g).columns = s.columns := rfl
@[simp] theorem State.setBay_mapGen (s : State) (n : Nat) (x : Bay) : (s.setBay n x).mapGen = s.mapGen := rfl
@[simp] theorem State.updBay_mapGen (s : State) (n : Nat) (g : Bay → Bay) : (s.updBay n g).mapGen = s.mapGen := rfl
@[simp] theorem State.setBay_enable (s : State) (n : Nat) (x : Bay) : (s.setBay n x).enable = s.enable := rfl
@[simp] theorem State.updBay_enable (s : State) (n : Nat) (g : Bay → Bay) : (s.updBay n g).enable = s.enable := rfl
@[simp] theorem State.setBay_boot (s : State) (n : Nat) (x : Bay) : (s.setBay n x).boot = s.boot := rfl
@[simp] theorem State.updBay_boot (s : State) (n : Nat) (g : Bay → Bay) : (s.updBay n g).boot = s.boot := rfl
@[simp] theorem State.setBay_phys (s : State) (n : Nat) (x : Bay) : (s.setBay n x).phys = s.phys := rfl
@[simp] theorem State.updBay_phys (s : State) (n : Nat) (g : Bay → Bay) : (s.updBay n g).phys = s.phys := rfl
@[simp] theorem State.setBay_plan (s : State) (n : Nat) (x : Bay) : (s.setBay n x).plan = s.plan := rfl
@[simp] theorem State.updBay_plan (s : State) (n : Nat) (g : Bay → Bay) : (s.updBay n g).plan = s.plan := rfl
@[simp] theorem State.setBay_mgmt (s : State) (n : Nat) (x : Bay) : (s.setBay n x).mgmt = s.mgmt := rfl
@[simp] theorem State.updBay_mgmt (s : State) (n : Nat) (g : Bay → Bay) : (s.updBay n g).mgmt = s.mgmt := rfl
@[simp] theorem State.setBay_recorder (s : State) (n : Nat) (x : Bay) : (s.setBay n x).recorder = s.recorder := rfl
@[simp] theorem State.updBay_recorder (s : State) (n : Nat) (g : Bay → Bay) : (s.updBay n g).recorder = s.recorder := rfl
@[simp] theorem State.setBay_regs (s : State) (n : Nat) (x : Bay) : (s.setBay n x).regs = s.regs := rfl
@[simp] theorem State.updBay_regs (s : State) (n : Nat) (g : Bay → Bay) : (s.updBay n g).regs = s.regs := rfl
@[simp] theorem State.setBay_clocks (s : State) (n : Nat) (x : Bay) : (s.setBay n x).clocks = s.clocks := rfl
@[simp] theorem State.updBay_clocks (s : State) (n : Nat) (g : Bay → Bay) : (s.updBay n g).clocks = s.clocks := rfl
@[simp] theorem State.setBay_power (s : State) (n : Nat) (x : Bay) : (s.setBay n x).power = s.power := rfl
@[simp] theorem State.updBay_power (s : State) (n : Nat) (g : Bay → Bay) : (s.updBay n g).power = s.power := rfl
@[simp] theorem State.setBay_hostMem (s : State) (n : Nat) (x : Bay) : (s.setBay n x).hostMem = s.hostMem := rfl
@[simp] theorem State.updBay_hostMem (s : State) (n : Nat) (g : Bay → Bay) : (s.updBay n g).hostMem = s.hostMem := rfl
@[simp] theorem State.setBay_hostPoison (s : State) (n : Nat) (x : Bay) : (s.setBay n x).hostPoison = s.hostPoison := rfl
@[simp] theorem State.updBay_hostPoison (s : State) (n : Nat) (g : Bay → Bay) : (s.updBay n g).hostPoison = s.hostPoison := rfl
@[simp] theorem State.setBay_msix (s : State) (n : Nat) (x : Bay) : (s.setBay n x).msix = s.msix := rfl
@[simp] theorem State.updBay_msix (s : State) (n : Nat) (g : Bay → Bay) : (s.updBay n g).msix = s.msix := rfl
@[simp] theorem State.setBay_cycles (s : State) (n : Nat) (x : Bay) : (s.setBay n x).cycles = s.cycles := rfl
@[simp] theorem State.updBay_cycles (s : State) (n : Nat) (g : Bay → Bay) : (s.updBay n g).cycles = s.cycles := rfl
@[simp] theorem State.setBay_free (s : State) (n : Nat) (x : Bay) : (s.setBay n x).free = s.free := rfl
@[simp] theorem State.updBay_free (s : State) (n : Nat) (g : Bay → Bay) : (s.updBay n g).free = s.free := rfl
@[simp] theorem State.setBay_at_core (s : State) (n i : Nat) (x : Bay) : (s.setBay n x).core i = s.core i := rfl
@[simp] theorem State.updBay_at_core (s : State) (n i : Nat) (g : Bay → Bay) : (s.updBay n g).core i = s.core i := rfl
@[simp] theorem State.setBay_at_router (s : State) (n i : Nat) (x : Bay) : (s.setBay n x).router i = s.router i := rfl
@[simp] theorem State.updBay_at_router (s : State) (n i : Nat) (g : Bay → Bay) : (s.updBay n g).router i = s.router i := rfl
@[simp] theorem State.setBay_at_cluster (s : State) (n i : Nat) (x : Bay) : (s.setBay n x).cluster i = s.cluster i := rfl
@[simp] theorem State.updBay_at_cluster (s : State) (n i : Nat) (g : Bay → Bay) : (s.updBay n g).cluster i = s.cluster i := rfl
@[simp] theorem State.setBay_at_field (s : State) (n i : Nat) (x : Bay) : (s.setBay n x).field i = s.field i := rfl
@[simp] theorem State.updBay_at_field (s : State) (n i : Nat) (g : Bay → Bay) : (s.updBay n g).field i = s.field i := rfl
@[simp] theorem State.setBay_at_forme (s : State) (n i : Nat) (x : Bay) : (s.setBay n x).forme i = s.forme i := rfl
@[simp] theorem State.updBay_at_forme (s : State) (n i : Nat) (g : Bay → Bay) : (s.updBay n g).forme i = s.forme i := rfl
@[simp] theorem State.setBay_at_station (s : State) (n i : Nat) (x : Bay) : (s.setBay n x).station i = s.station i := rfl
@[simp] theorem State.updBay_at_station (s : State) (n i : Nat) (g : Bay → Bay) : (s.updBay n g).station i = s.station i := rfl
@[simp] theorem State.setBay_at_fport (s : State) (n i : Nat) (x : Bay) : (s.setBay n x).fport i = s.fport i := rfl
@[simp] theorem State.updBay_at_fport (s : State) (n i : Nat) (g : Bay → Bay) : (s.updBay n g).fport i = s.fport i := rfl
@[simp] theorem State.setBay_at_ring (s : State) (n i : Nat) (x : Bay) : (s.setBay n x).ring i = s.ring i := rfl
@[simp] theorem State.updBay_at_ring (s : State) (n i : Nat) (g : Bay → Bay) : (s.updBay n g).ring i = s.ring i := rfl

/-! ### Ring -/

@[simp] theorem State.setRing_pending (s : State) (n : Nat) (x : Ring) : (s.setRing n x).pending = s.pending := rfl
@[simp] theorem State.updRing_pending (s : State) (n : Nat) (g : Ring → Ring) : (s.updRing n g).pending = s.pending := rfl
@[simp] theorem State.setRing_cores (s : State) (n : Nat) (x : Ring) : (s.setRing n x).cores = s.cores := rfl
@[simp] theorem State.updRing_cores (s : State) (n : Nat) (g : Ring → Ring) : (s.updRing n g).cores = s.cores := rfl
@[simp] theorem State.setRing_routers (s : State) (n : Nat) (x : Ring) : (s.setRing n x).routers = s.routers := rfl
@[simp] theorem State.updRing_routers (s : State) (n : Nat) (g : Ring → Ring) : (s.updRing n g).routers = s.routers := rfl
@[simp] theorem State.setRing_clusters (s : State) (n : Nat) (x : Ring) : (s.setRing n x).clusters = s.clusters := rfl
@[simp] theorem State.updRing_clusters (s : State) (n : Nat) (g : Ring → Ring) : (s.updRing n g).clusters = s.clusters := rfl
@[simp] theorem State.setRing_fields (s : State) (n : Nat) (x : Ring) : (s.setRing n x).fields = s.fields := rfl
@[simp] theorem State.updRing_fields (s : State) (n : Nat) (g : Ring → Ring) : (s.updRing n g).fields = s.fields := rfl
@[simp] theorem State.setRing_formes (s : State) (n : Nat) (x : Ring) : (s.setRing n x).formes = s.formes := rfl
@[simp] theorem State.updRing_formes (s : State) (n : Nat) (g : Ring → Ring) : (s.updRing n g).formes = s.formes := rfl
@[simp] theorem State.setRing_stations (s : State) (n : Nat) (x : Ring) : (s.setRing n x).stations = s.stations := rfl
@[simp] theorem State.updRing_stations (s : State) (n : Nat) (g : Ring → Ring) : (s.updRing n g).stations = s.stations := rfl
@[simp] theorem State.setRing_fports (s : State) (n : Nat) (x : Ring) : (s.setRing n x).fports = s.fports := rfl
@[simp] theorem State.updRing_fports (s : State) (n : Nat) (g : Ring → Ring) : (s.updRing n g).fports = s.fports := rfl
@[simp] theorem State.setRing_bays (s : State) (n : Nat) (x : Ring) : (s.setRing n x).bays = s.bays := rfl
@[simp] theorem State.updRing_bays (s : State) (n : Nat) (g : Ring → Ring) : (s.updRing n g).bays = s.bays := rfl
@[simp] theorem State.setRing_reports (s : State) (n : Nat) (x : Ring) : (s.setRing n x).reports = s.reports := rfl
@[simp] theorem State.updRing_reports (s : State) (n : Nat) (g : Ring → Ring) : (s.updRing n g).reports = s.reports := rfl
@[simp] theorem State.setRing_hellbox (s : State) (n : Nat) (x : Ring) : (s.setRing n x).hellbox = s.hellbox := rfl
@[simp] theorem State.updRing_hellbox (s : State) (n : Nat) (g : Ring → Ring) : (s.updRing n g).hellbox = s.hellbox := rfl
@[simp] theorem State.setRing_columns (s : State) (n : Nat) (x : Ring) : (s.setRing n x).columns = s.columns := rfl
@[simp] theorem State.updRing_columns (s : State) (n : Nat) (g : Ring → Ring) : (s.updRing n g).columns = s.columns := rfl
@[simp] theorem State.setRing_mapGen (s : State) (n : Nat) (x : Ring) : (s.setRing n x).mapGen = s.mapGen := rfl
@[simp] theorem State.updRing_mapGen (s : State) (n : Nat) (g : Ring → Ring) : (s.updRing n g).mapGen = s.mapGen := rfl
@[simp] theorem State.setRing_enable (s : State) (n : Nat) (x : Ring) : (s.setRing n x).enable = s.enable := rfl
@[simp] theorem State.updRing_enable (s : State) (n : Nat) (g : Ring → Ring) : (s.updRing n g).enable = s.enable := rfl
@[simp] theorem State.setRing_boot (s : State) (n : Nat) (x : Ring) : (s.setRing n x).boot = s.boot := rfl
@[simp] theorem State.updRing_boot (s : State) (n : Nat) (g : Ring → Ring) : (s.updRing n g).boot = s.boot := rfl
@[simp] theorem State.setRing_phys (s : State) (n : Nat) (x : Ring) : (s.setRing n x).phys = s.phys := rfl
@[simp] theorem State.updRing_phys (s : State) (n : Nat) (g : Ring → Ring) : (s.updRing n g).phys = s.phys := rfl
@[simp] theorem State.setRing_plan (s : State) (n : Nat) (x : Ring) : (s.setRing n x).plan = s.plan := rfl
@[simp] theorem State.updRing_plan (s : State) (n : Nat) (g : Ring → Ring) : (s.updRing n g).plan = s.plan := rfl
@[simp] theorem State.setRing_mgmt (s : State) (n : Nat) (x : Ring) : (s.setRing n x).mgmt = s.mgmt := rfl
@[simp] theorem State.updRing_mgmt (s : State) (n : Nat) (g : Ring → Ring) : (s.updRing n g).mgmt = s.mgmt := rfl
@[simp] theorem State.setRing_recorder (s : State) (n : Nat) (x : Ring) : (s.setRing n x).recorder = s.recorder := rfl
@[simp] theorem State.updRing_recorder (s : State) (n : Nat) (g : Ring → Ring) : (s.updRing n g).recorder = s.recorder := rfl
@[simp] theorem State.setRing_regs (s : State) (n : Nat) (x : Ring) : (s.setRing n x).regs = s.regs := rfl
@[simp] theorem State.updRing_regs (s : State) (n : Nat) (g : Ring → Ring) : (s.updRing n g).regs = s.regs := rfl
@[simp] theorem State.setRing_clocks (s : State) (n : Nat) (x : Ring) : (s.setRing n x).clocks = s.clocks := rfl
@[simp] theorem State.updRing_clocks (s : State) (n : Nat) (g : Ring → Ring) : (s.updRing n g).clocks = s.clocks := rfl
@[simp] theorem State.setRing_power (s : State) (n : Nat) (x : Ring) : (s.setRing n x).power = s.power := rfl
@[simp] theorem State.updRing_power (s : State) (n : Nat) (g : Ring → Ring) : (s.updRing n g).power = s.power := rfl
@[simp] theorem State.setRing_hostMem (s : State) (n : Nat) (x : Ring) : (s.setRing n x).hostMem = s.hostMem := rfl
@[simp] theorem State.updRing_hostMem (s : State) (n : Nat) (g : Ring → Ring) : (s.updRing n g).hostMem = s.hostMem := rfl
@[simp] theorem State.setRing_hostPoison (s : State) (n : Nat) (x : Ring) : (s.setRing n x).hostPoison = s.hostPoison := rfl
@[simp] theorem State.updRing_hostPoison (s : State) (n : Nat) (g : Ring → Ring) : (s.updRing n g).hostPoison = s.hostPoison := rfl
@[simp] theorem State.setRing_msix (s : State) (n : Nat) (x : Ring) : (s.setRing n x).msix = s.msix := rfl
@[simp] theorem State.updRing_msix (s : State) (n : Nat) (g : Ring → Ring) : (s.updRing n g).msix = s.msix := rfl
@[simp] theorem State.setRing_cycles (s : State) (n : Nat) (x : Ring) : (s.setRing n x).cycles = s.cycles := rfl
@[simp] theorem State.updRing_cycles (s : State) (n : Nat) (g : Ring → Ring) : (s.updRing n g).cycles = s.cycles := rfl
@[simp] theorem State.setRing_free (s : State) (n : Nat) (x : Ring) : (s.setRing n x).free = s.free := rfl
@[simp] theorem State.updRing_free (s : State) (n : Nat) (g : Ring → Ring) : (s.updRing n g).free = s.free := rfl
@[simp] theorem State.setRing_at_core (s : State) (n i : Nat) (x : Ring) : (s.setRing n x).core i = s.core i := rfl
@[simp] theorem State.updRing_at_core (s : State) (n i : Nat) (g : Ring → Ring) : (s.updRing n g).core i = s.core i := rfl
@[simp] theorem State.setRing_at_router (s : State) (n i : Nat) (x : Ring) : (s.setRing n x).router i = s.router i := rfl
@[simp] theorem State.updRing_at_router (s : State) (n i : Nat) (g : Ring → Ring) : (s.updRing n g).router i = s.router i := rfl
@[simp] theorem State.setRing_at_cluster (s : State) (n i : Nat) (x : Ring) : (s.setRing n x).cluster i = s.cluster i := rfl
@[simp] theorem State.updRing_at_cluster (s : State) (n i : Nat) (g : Ring → Ring) : (s.updRing n g).cluster i = s.cluster i := rfl
@[simp] theorem State.setRing_at_field (s : State) (n i : Nat) (x : Ring) : (s.setRing n x).field i = s.field i := rfl
@[simp] theorem State.updRing_at_field (s : State) (n i : Nat) (g : Ring → Ring) : (s.updRing n g).field i = s.field i := rfl
@[simp] theorem State.setRing_at_forme (s : State) (n i : Nat) (x : Ring) : (s.setRing n x).forme i = s.forme i := rfl
@[simp] theorem State.updRing_at_forme (s : State) (n i : Nat) (g : Ring → Ring) : (s.updRing n g).forme i = s.forme i := rfl
@[simp] theorem State.setRing_at_station (s : State) (n i : Nat) (x : Ring) : (s.setRing n x).station i = s.station i := rfl
@[simp] theorem State.updRing_at_station (s : State) (n i : Nat) (g : Ring → Ring) : (s.updRing n g).station i = s.station i := rfl
@[simp] theorem State.setRing_at_fport (s : State) (n i : Nat) (x : Ring) : (s.setRing n x).fport i = s.fport i := rfl
@[simp] theorem State.updRing_at_fport (s : State) (n i : Nat) (g : Ring → Ring) : (s.updRing n g).fport i = s.fport i := rfl
@[simp] theorem State.setRing_at_bay (s : State) (n i : Nat) (x : Ring) : (s.setRing n x).bay i = s.bay i := rfl
@[simp] theorem State.updRing_at_bay (s : State) (n i : Nat) (g : Ring → Ring) : (s.updRing n g).bay i = s.bay i := rfl

end Sys2Proof.Machine
end

