-- ==== Sys2Proof/Laws/Tables.lean ====
section
/-! SUPPORT. Reading a table, a memory or a unit of the state after it has been written. -/

namespace Sys2Proof.Machine

/-! ### Tables -/

theorem Map.get_erase {α : Type} (d : α) (m : Map α) (i j : Nat) :
    Map.get d (Map.erase m i) j = if j = i then d else Map.get d m j := by
  induction m with
  | nil => simp [Map.erase, Map.get]
  | cons e t ih =>
    obtain ⟨k, v⟩ := e
    simp only [Map.erase] at ih ⊢
    by_cases hk : k = i
    · subst hk
      by_cases hj : j = k
      · subst hj; simpa [Map.get] using ih
      · have : ¬ k = j := fun h => hj h.symm
        simp [Map.get, this, hj] at ih ⊢; exact ih
    · by_cases hj : j = i
      · subst hj
        have : ¬ k = j := hk
        simp [Map.get, this] at ih ⊢; exact ih
      · by_cases hkj : k = j
        · subst hkj; simp [Map.get, hk]
        · simp [Map.get, hk, hj, hkj] at ih ⊢; exact ih

theorem Map.get_insert {α : Type} (d : α) (m : Map α) (i : Nat) (v : α) (j : Nat) (h : ∀ e ∈ m, e.1 ≠ i) :
    Map.get d (Map.insert m i v) j = if j = i then v else Map.get d m j := by
  induction m with
  | nil =>
    by_cases hj : j = i
    · simp [Map.insert, Map.get, hj]
    · have : ¬ i = j := fun h => hj h.symm
      simp [Map.insert, Map.get, hj, this]
  | cons e t ih =>
    obtain ⟨k, w⟩ := e
    have hk : k ≠ i := h (k, w) (by simp)
    have ih := ih (fun e he => h e (by simp [he]))
    unfold Map.insert
    by_cases hlt : i < k
    · by_cases hj : j = i
      · simp [hlt, Map.get, hj]
      · have : ¬ i = j := fun h => hj h.symm
        simp [hlt, Map.get, hj, this]
    · by_cases hj : j = i
      · subst hj; simp [hlt, Map.get, hk, ih]
      · by_cases hkj : k = j
        · subst hkj; simp [hlt, Map.get, hj]
        · simp [hlt, Map.get, hkj, ih, hj]

theorem Map.erase_ne {α : Type} (m : Map α) (i : Nat) : ∀ e ∈ Map.erase m i, e.1 ≠ i := by
  intro e he; simp [Map.erase] at he; exact he.2

/-- Reading a table after one entry has been written. -/
theorem Map.get_set {α : Type} [DecidableEq α] (d : α) (m : Map α) (i : Nat) (v : α) (j : Nat) :
    Map.get d (Map.set d m i v) j = if j = i then v else Map.get d m j := by
  unfold Map.set
  by_cases hv : v = d
  · simp [hv, Map.get_erase]
  · simp only [hv, if_false]
    rw [Map.get_insert d _ i v j (Map.erase_ne m i), Map.get_erase]
    by_cases hj : j = i <;> simp [hj]

@[simp] theorem Map.get_set_self {α : Type} [DecidableEq α] (d : α) (m : Map α) (i : Nat) (v : α) :
    Map.get d (Map.set d m i v) i = v := by simp [Map.get_set]

theorem Map.get_set_ne {α : Type} [DecidableEq α] (d : α) (m : Map α) {i j : Nat} (v : α) (h : j ≠ i) :
    Map.get d (Map.set d m i v) j = Map.get d m j := by simp [Map.get_set, h]

@[simp] theorem Map.get_upd_self {α : Type} [DecidableEq α] (d : α) (m : Map α) (i : Nat) (f : α → α) :
    Map.get d (Map.upd d m i f) i = f (Map.get d m i) := by simp [Map.upd]

theorem Map.get_upd_ne {α : Type} [DecidableEq α] (d : α) (m : Map α) {i j : Nat} (f : α → α) (h : j ≠ i) :
    Map.get d (Map.upd d m i f) j = Map.get d m j := by simp [Map.upd, Map.get_set_ne d m _ h]

/-- Reading a table after one entry has been changed. -/
theorem Map.get_upd {α : Type} [DecidableEq α] (d : α) (m : Map α) (i : Nat) (f : α → α) (j : Nat) :
    Map.get d (Map.upd d m i f) j = if j = i then f (Map.get d m i) else Map.get d m j := by
  simp [Map.upd, Map.get_set]

/-! ### Canonical form -/

theorem Map.erase_sorted {α : Type} (m : Map α) (i : Nat) (h : m.Pairwise (fun a b => a.1 < b.1)) :
    (Map.erase m i).Pairwise (fun a b => a.1 < b.1) := h.filter _

theorem Map.mem_insert {α : Type} (m : Map α) (i : Nat) (v : α) (e : Nat × α) :
    e ∈ Map.insert m i v ↔ e = (i, v) ∨ e ∈ m := by
  induction m with
  | nil => simp [Map.insert]
  | cons x t ih =>
    obtain ⟨k, w⟩ := x
    unfold Map.insert
    by_cases h : i < k
    · simp [h]
    · simp [h, ih]; constructor <;> rintro (h | h | h) <;> simp [h]

theorem Map.insert_sorted {α : Type} (m : Map α) (i : Nat) (v : α) (h : m.Pairwise (fun a b => a.1 < b.1))
    (hn : ∀ e ∈ m, e.1 ≠ i) : (Map.insert m i v).Pairwise (fun a b => a.1 < b.1) := by
  induction m with
  | nil => simp [Map.insert]
  | cons x t ih =>
    obtain ⟨k, w⟩ := x
    unfold Map.insert
    have hk : k ≠ i := hn (k, w) (by simp)
    rw [List.pairwise_cons] at h
    by_cases hlt : i < k
    · rw [if_pos hlt]
      refine List.pairwise_cons.2 ⟨?_, List.pairwise_cons.2 ⟨h.1, h.2⟩⟩
      intro e he
      rcases List.mem_cons.1 he with he | he
      · rw [he]; exact hlt
      · exact Nat.lt_trans hlt (h.1 e he)
    · rw [if_neg hlt]
      refine List.pairwise_cons.2 ⟨?_, ih h.2 (fun e he => hn e (by simp [he]))⟩
      intro e he
      rcases (Map.mem_insert t i v e).1 he with he | he
      · rw [he]; show k < i; omega
      · exact h.1 e he

/-- Writing an entry keeps a table's canonical form. -/
theorem Map.set_wf {α : Type} [DecidableEq α] (d : α) (m : Map α) (i : Nat) (v : α) (h : Map.wf d m = true) :
    Map.wf d (Map.set d m i v) = true := by
  simp only [Map.wf, Bool.and_eq_true, decide_eq_true_eq, List.all_eq_true] at h ⊢
  unfold Map.set
  by_cases hv : v = d
  · simp only [hv, if_true]
    exact ⟨Map.erase_sorted m i h.1, fun e he => h.2 e (List.mem_filter.1 he).1⟩
  · simp only [hv, if_false]
    refine ⟨Map.insert_sorted _ i v (Map.erase_sorted m i h.1) (Map.erase_ne m i), fun e he => ?_⟩
    rcases (Map.mem_insert _ i v e).1 he with he | he
    · rw [he]; exact hv
    · exact h.2 e (List.mem_filter.1 he).1

/-- Changing an entry keeps a table's canonical form. -/
theorem Map.upd_wf {α : Type} [DecidableEq α] (d : α) (m : Map α) (i : Nat) (f : α → α) (h : Map.wf d m = true) :
    Map.wf d (Map.upd d m i f) = true := Map.set_wf d m i _ h

/-! ### Byte memories -/

theorem Mem.read_write (m : Mem) (a : Nat) (b : Byte) (x : Nat) :
    (m.write a b).read x = if x = a then b else m.read x := Map.get_set 0 m a b x

/-- A byte outside the bytes written reads as before. -/
theorem Mem.read_writeN_out (b : Bytes) : ∀ (m : Mem) (a x : Nat), x < a ∨ a + b.length ≤ x →
    (m.writeN a b).read x = m.read x := by
  induction b with
  | nil => intro m a x _; rfl
  | cons e t ih =>
    intro m a x h
    have h' : x < a + 1 ∨ a + 1 + t.length ≤ x := by
      rcases h with h | h
      · left; omega
      · right; simp at h; omega
    have hx : x ≠ a := by
      rcases h with h | h
      · omega
      · simp at h; omega
    simp only [Mem.writeN]
    rw [ih (m.write a e) (a + 1) x h', Mem.read_write, if_neg hx]

/-- A byte written reads as it was written. -/
theorem Mem.read_writeN_in (b : Bytes) : ∀ (m : Mem) (a i : Nat) (h : i < b.length),
    (m.writeN a b).read (a + i) = b[i] := by
  induction b with
  | nil => intro m a i h; simp at h
  | cons e t ih =>
    intro m a i h
    cases i with
    | zero =>
      simp only [Mem.writeN, Nat.add_zero, List.getElem_cons_zero]
      rw [Mem.read_writeN_out t _ _ a (Or.inl (by omega)), Mem.read_write, if_pos rfl]
    | succ j =>
      have := ih (m.write a e) (a + 1) j (by simpa using h)
      simp only [Mem.writeN, List.getElem_cons_succ]
      rw [← this]; congr 1; omega

/-- Every write keeps a byte memory's canonical form. -/
theorem Mem.write_wf (m : Mem) (a : Nat) (b : Byte) (h : m.wf = true) : (m.write a b).wf = true := Map.set_wf 0 m a b h

theorem Mem.writeN_wf (b : Bytes) : ∀ (m : Mem) (a : Nat), m.wf = true → (m.writeN a b).wf = true := by
  induction b with
  | nil => intro m a h; exact h
  | cons e t ih => intro m a h; exact ih (m.write a e) (a + 1) (Mem.write_wf m a e h)

/-- Every store keeps host memory's canonical form. -/
theorem Mem.put_sorted (m : Mem) (a : Nat) (b : Byte) (h : m.sorted = true) : (m.put a b).sorted = true := by
  simp only [Mem.sorted, decide_eq_true_eq] at h ⊢
  exact Map.insert_sorted _ a b (Map.erase_sorted m a h) (Map.erase_ne m a)

theorem Mem.putN_sorted (b : Bytes) : ∀ (m : Mem) (a : Nat), m.sorted = true → (m.putN a b).sorted = true := by
  induction b with
  | nil => intro m a h; exact h
  | cons e t ih => intro m a h; exact ih (m.put a e) (a + 1) (Mem.put_sorted m a e h)

/-! ### Units of the state -/

@[simp] theorem State.core_setCore (s : State) (c : Nat) (x : Core) : (s.setCore c x).core c = x :=
  Map.get_set_self Core.init _ c x
theorem State.core_setCore_ne (s : State) {c i : Nat} (x : Core) (h : i ≠ c) : (s.setCore c x).core i = s.core i :=
  Map.get_set_ne Core.init _ x h
@[simp] theorem State.core_updCore (s : State) (c : Nat) (g : Core → Core) : (s.updCore c g).core c = g (s.core c) :=
  Map.get_set_self Core.init _ c _
theorem State.core_updCore_ne (s : State) {c i : Nat} (g : Core → Core) (h : i ≠ c) : (s.updCore c g).core i = s.core i :=
  Map.get_set_ne Core.init _ _ h

@[simp] theorem State.router_setRouter (s : State) (c : Nat) (x : Router) : (s.setRouter c x).router c = x :=
  Map.get_set_self Router.init _ c x
theorem State.router_setRouter_ne (s : State) {c i : Nat} (x : Router) (h : i ≠ c) : (s.setRouter c x).router i = s.router i :=
  Map.get_set_ne Router.init _ x h
@[simp] theorem State.router_updRouter (s : State) (c : Nat) (g : Router → Router) : (s.updRouter c g).router c = g (s.router c) :=
  Map.get_set_self Router.init _ c _
theorem State.router_updRouter_ne (s : State) {c i : Nat} (g : Router → Router) (h : i ≠ c) : (s.updRouter c g).router i = s.router i :=
  Map.get_set_ne Router.init _ _ h

@[simp] theorem State.cluster_setCluster (s : State) (k : Nat) (x : Cluster) : (s.setCluster k x).cluster k = x :=
  Map.get_set_self Cluster.init _ k x
theorem State.cluster_setCluster_ne (s : State) {k i : Nat} (x : Cluster) (h : i ≠ k) : (s.setCluster k x).cluster i = s.cluster i :=
  Map.get_set_ne Cluster.init _ x h
@[simp] theorem State.cluster_updCluster (s : State) (k : Nat) (g : Cluster → Cluster) : (s.updCluster k g).cluster k = g (s.cluster k) :=
  Map.get_set_self Cluster.init _ k _
theorem State.cluster_updCluster_ne (s : State) {k i : Nat} (g : Cluster → Cluster) (h : i ≠ k) : (s.updCluster k g).cluster i = s.cluster i :=
  Map.get_set_ne Cluster.init _ _ h

@[simp] theorem State.field_setField (s : State) (n : Nat) (x : Field) : (s.setField n x).field n = x :=
  Map.get_set_self Field.init _ n x
theorem State.field_setField_ne (s : State) {n i : Nat} (x : Field) (h : i ≠ n) : (s.setField n x).field i = s.field i :=
  Map.get_set_ne Field.init _ x h
@[simp] theorem State.field_updField (s : State) (n : Nat) (g : Field → Field) : (s.updField n g).field n = g (s.field n) :=
  Map.get_set_self Field.init _ n _
theorem State.field_updField_ne (s : State) {n i : Nat} (g : Field → Field) (h : i ≠ n) : (s.updField n g).field i = s.field i :=
  Map.get_set_ne Field.init _ _ h

@[simp] theorem State.forme_setForme (s : State) (n : Nat) (x : Forme) : (s.setForme n x).forme n = x :=
  Map.get_set_self Forme.init _ n x
theorem State.forme_setForme_ne (s : State) {n i : Nat} (x : Forme) (h : i ≠ n) : (s.setForme n x).forme i = s.forme i :=
  Map.get_set_ne Forme.init _ x h
@[simp] theorem State.forme_updForme (s : State) (n : Nat) (g : Forme → Forme) : (s.updForme n g).forme n = g (s.forme n) :=
  Map.get_set_self Forme.init _ n _
theorem State.forme_updForme_ne (s : State) {n i : Nat} (g : Forme → Forme) (h : i ≠ n) : (s.updForme n g).forme i = s.forme i :=
  Map.get_set_ne Forme.init _ _ h

@[simp] theorem State.station_setStation (s : State) (n : Nat) (x : Station) : (s.setStation n x).station n = x :=
  Map.get_set_self Station.init _ n x
theorem State.station_setStation_ne (s : State) {n i : Nat} (x : Station) (h : i ≠ n) : (s.setStation n x).station i = s.station i :=
  Map.get_set_ne Station.init _ x h
@[simp] theorem State.station_updStation (s : State) (n : Nat) (g : Station → Station) : (s.updStation n g).station n = g (s.station n) :=
  Map.get_set_self Station.init _ n _
theorem State.station_updStation_ne (s : State) {n i : Nat} (g : Station → Station) (h : i ≠ n) : (s.updStation n g).station i = s.station i :=
  Map.get_set_ne Station.init _ _ h

@[simp] theorem State.fport_setFport (s : State) (n : Nat) (x : FPort) : (s.setFport n x).fport n = x :=
  Map.get_set_self FPort.init _ n x
theorem State.fport_setFport_ne (s : State) {n i : Nat} (x : FPort) (h : i ≠ n) : (s.setFport n x).fport i = s.fport i :=
  Map.get_set_ne FPort.init _ x h
@[simp] theorem State.fport_updFport (s : State) (n : Nat) (g : FPort → FPort) : (s.updFport n g).fport n = g (s.fport n) :=
  Map.get_set_self FPort.init _ n _
theorem State.fport_updFport_ne (s : State) {n i : Nat} (g : FPort → FPort) (h : i ≠ n) : (s.updFport n g).fport i = s.fport i :=
  Map.get_set_ne FPort.init _ _ h

@[simp] theorem State.bay_setBay (s : State) (n : Nat) (x : Bay) : (s.setBay n x).bay n = x :=
  Map.get_set_self Bay.init _ n x
theorem State.bay_setBay_ne (s : State) {n i : Nat} (x : Bay) (h : i ≠ n) : (s.setBay n x).bay i = s.bay i :=
  Map.get_set_ne Bay.init _ x h
@[simp] theorem State.bay_updBay (s : State) (n : Nat) (g : Bay → Bay) : (s.updBay n g).bay n = g (s.bay n) :=
  Map.get_set_self Bay.init _ n _
theorem State.bay_updBay_ne (s : State) {n i : Nat} (g : Bay → Bay) (h : i ≠ n) : (s.updBay n g).bay i = s.bay i :=
  Map.get_set_ne Bay.init _ _ h

@[simp] theorem State.ring_setRing (s : State) (n : Nat) (x : Ring) : (s.setRing n x).ring n = x :=
  Map.get_set_self Ring.init _ n x
theorem State.ring_setRing_ne (s : State) {n i : Nat} (x : Ring) (h : i ≠ n) : (s.setRing n x).ring i = s.ring i :=
  Map.get_set_ne Ring.init _ x h
@[simp] theorem State.ring_updRing (s : State) (n : Nat) (g : Ring → Ring) : (s.updRing n g).ring n = g (s.ring n) :=
  Map.get_set_self Ring.init _ n _
theorem State.ring_updRing_ne (s : State) {n i : Nat} (g : Ring → Ring) (h : i ≠ n) : (s.updRing n g).ring i = s.ring i :=
  Map.get_set_ne Ring.init _ _ h

end Sys2Proof.Machine
end

