-- ==== Sys2Proof/Laws/Books.lean ====
section
/-! SUPPORT. What posting records, writing completions and ending commands can change: the books of the module (records, rings,
registers, host memory, the formes' own state) and nothing else. -/

namespace Sys2Proof.Machine

/-- Only the books have changed: formes, rings, the proof recorder, the set-up registers, the management processor, host memory,
interrupts sent and the draws. -/
def State.Books (s t : State) : Prop :=
  t = { s with formes := t.formes, rings := t.rings, recorder := t.recorder, regs := t.regs, mgmt := t.mgmt,
               hostMem := t.hostMem, hostPoison := t.hostPoison, msix := t.msix, free := t.free }

theorem State.Books.rfl' (s : State) : s.Books s := rfl

theorem State.Books.trans {s t u : State} (h : s.Books t) (k : t.Books u) : s.Books u := by
  refine Eq.trans k ?_
  rw [h]

theorem State.Books.cores {s t : State} (h : s.Books t) : t.cores = s.cores := by rw [h]
theorem State.Books.core {s t : State} (h : s.Books t) (c : Nat) : t.core c = s.core c := by
  unfold State.core; rw [h.cores]
theorem State.Books.fields {s t : State} (h : s.Books t) : t.fields = s.fields := by rw [h]
theorem State.Books.phys {s t : State} (h : s.Books t) : t.phys = s.phys := by rw [h]
theorem State.Books.pending {s t : State} (h : s.Books t) : t.pending = s.pending := by rw [h]

theorem State.Books.ite {s a b : State} {p : Prop} [Decidable p] (h : s.Books a) (k : s.Books b) :
    s.Books (if p then a else b) := by
  split
  · exact h
  · exact k

/-- A list of operations that change only the books changes only the books. -/
theorem State.Books.forAll {α : Type} (l : List α) (f : State → α → State) (h : ∀ (s : State) (a : α), s.Books (f s a))
    (s : State) :
    s.Books (s.forAll l f) := by
  unfold State.forAll
  induction l generalizing s with
  | nil => exact State.Books.rfl' s
  | cons a t ih => exact (h s a).trans (ih (f s a))

theorem State.setStatus_books (s : State) (b : Nat) : s.Books (s.setStatus b) := rfl
theorem State.updRing_books (s : State) (r : Nat) (f : Ring → Ring) : s.Books (s.updRing r f) := rfl
theorem State.updForme_books (s : State) (f : Nat) (g : Forme → Forme) : s.Books (s.updForme f g) := rfl
theorem State.draw_books (s : State) : s.Books s.draw.2 := rfl
theorem State.hostPut_books (s : State) (a : Nat) (b : Bytes) (p : Bool) : s.Books (s.hostPut a b p) := rfl
theorem State.hostPutSlots_books (s : State) (a : Nat) (l : List Slot) : s.Books (s.hostPutSlots a l) := rfl

theorem State.hostStores_books (s : State) (l : List HostStore) : s.Books (s.hostStores l) :=
  State.Books.forAll l _ (fun s h => State.hostPut_books s h.addr h.data h.poison) s

theorem State.chainWith_books (s : State) (sends : Bool) (b : Bytes) : s.Books (s.chainWith sends b) := by
  unfold State.chainWith
  exact State.Books.ite rfl rfl

theorem State.chainBytes_books (s : State) (b : Bytes) : s.Books (s.chainBytes b) := State.chainWith_books s _ b

theorem State.post_books (s : State) (r : RecSpec) : s.Books (s.post r) := by
  unfold State.post
  simp only []
  split
  · exact (s.draw_books).trans (State.chainBytes_books _ _)
  · rfl

theorem State.noteUncorrected_books (s : State) (f : Option Nat) (k u m l a : Nat) :
    s.Books (s.noteUncorrected f k u m l a) := by
  unfold State.noteUncorrected
  simp only []
  split
  · exact (State.post_books s _).trans rfl
  · exact State.post_books s _

theorem State.noteCorrected_books (s : State) (k u m l : Nat) : s.Books (s.noteCorrected k u m l) := by
  unfold State.noteCorrected
  simp only []
  split
  · exact State.Books.trans (t := { s with mgmt := _ }) rfl (State.post_books _ _)
  · rfl

/-! ### Rings -/

theorem State.ringWrite_books (s : State) (r a : Nat) (b : Bytes) : s.Books (s.ringWrite r a b) := by
  unfold State.ringWrite; split <;> rfl

theorem State.raiseIrq_books (s : State) (r : Nat) : s.Books (s.raiseIrq r) := by
  unfold State.raiseIrq; simp only []; split
  · rfl
  · split <;> rfl

theorem State.countIrq_books (s : State) (r : Nat) : s.Books (s.countIrq r) := by
  unfold State.countIrq; simp only []; split
  · exact (State.updRing_books s r _).trans (State.raiseIrq_books _ r)
  · rfl

theorem State.writeConsumer_books (s : State) (r : Nat) : s.Books (s.writeConsumer r) := State.ringWrite_books s r _ _
theorem State.writeProducer_books (s : State) (r : Nat) : s.Books (s.writeProducer r) := State.ringWrite_books s r _ _

theorem State.complete_books (s : State) (r : Nat) (c : Cmd) (k : Compl) : s.Books (s.complete r c k) := by
  have h (p : Prop) [Decidable p] (a : Nat) (b : Bytes) (f : Ring → Ring) :
      s.Books (((if p then s else s.ringWrite r a b).updRing r f).writeConsumer r) :=
    (State.Books.ite (State.Books.rfl' s) (State.ringWrite_books s r a b)).trans
      ((State.updRing_books _ r f).trans (State.writeConsumer_books _ r))
  unfold State.complete
  exact State.Books.ite (h _ _ _ _) (State.Books.ite ((h _ _ _ _).trans (State.raiseIrq_books _ r))
    ((h _ _ _ _).trans (State.countIrq_books _ r)))

theorem State.settle_books (n : Nat) (s : State) : s.Books (s.settle n) := by
  induction n generalizing s with
  | zero => exact State.Books.rfl' s
  | succ n ih =>
    unfold State.settle
    simp only []
    split
    · exact State.Books.rfl' s
    · exact (State.complete_books s _ _ _).trans (ih _)

theorem State.finish_books (s : State) (r : Nat) (c : Cmd) (k : Compl) : s.Books (s.finish r c k) :=
  (State.complete_books s r c k).trans (State.settle_books _ _)

/-! ### The proof recorder -/

theorem State.proofRecord_books (s : State) (k : Nat) (f : Option Nat) (fl : Nat) (a b : Bytes) :
    s.Books (s.proofRecord k f fl a b) := by
  unfold State.proofRecord; split <;> rfl

theorem State.portDigest_books (s : State) (u a b r : Nat) (f : Option Nat) (l : List Slot) :
    s.Books (s.portDigest u a b r f l) := State.proofRecord_books s _ _ _ _ _

theorem State.updFinger_books (s : State) (r q so c f p : Nat) (g : Finger → Finger) : s.Books (s.updFinger r q so c f p g) := by
  unfold State.updFinger; split <;> rfl

theorem State.runData_books (s : State) (f c k : Nat) (l : List Slot) : s.Books (s.runData f c k l) := by
  unfold State.runData; split
  · exact State.Books.rfl' s
  · exact State.updFinger_books s _ _ _ _ _ _ _

theorem State.runCounts_books (s : State) (f a b c d : Nat) : s.Books (s.runCounts f a b c d) := by
  unfold State.runCounts; split
  · exact State.Books.rfl' s
  · exact State.updFinger_books s _ _ _ _ _ _ _

theorem State.closeFingers_books (s : State) (r q : Nat) (f : Option Nat) (l : Nat) (cut : Bool) :
    s.Books (s.closeFingers r q f l cut) := by
  unfold State.closeFingers
  exact State.Books.trans (t := { s with recorder := _ }) rfl (State.Books.forAll _ _ (fun _ _ => State.proofRecord_books _ _ _ _ _ _) _)

theorem State.endSegment_books (s : State) (f : Nat) (cut : Bool) : s.Books (s.endSegment f cut) := by
  unfold State.endSegment
  split
  · exact State.Books.rfl' s
  · refine State.Books.trans (State.Books.forAll _ _ (fun s k => ?_) s) (State.closeFingers_books _ _ _ _ _ _)
    split
    · exact State.Books.rfl' s
    · exact State.updFinger_books s _ _ _ _ _ _ _

/-! ### The end of commands and of a forme's run -/

theorem State.putCmd_books (s : State) (r : Nat) (c : Cmd) : s.Books (s.putCmd r c) := rfl

theorem State.finishParts_books (s : State) (r : Nat) (c : Cmd) (cut : Bool) : s.Books (s.finishParts r c cut) := by
  unfold State.finishParts
  split
  · simp only []
    refine State.Books.trans ?_ (State.finish_books _ _ _ _)
    refine State.Books.trans ?_ (State.updRing_books _ _ _)
    split
    · exact State.closeFingers_books s _ _ _ _ _
    · exact State.Books.rfl' s
  · exact State.Books.rfl' s

theorem State.finishPart_books (s : State) (r q n st : Nat) : s.Books (s.finishPart r q n st) := by
  unfold State.finishPart
  split
  · exact State.Books.rfl' s
  · split
    · exact State.Books.rfl' s
    · split
      · exact State.Books.rfl' s
      · exact (State.putCmd_books s r _).trans (State.finishParts_books _ _ _ _)

theorem State.endCommands_books (s : State) (f : Nat) (k : Compl) : s.Books (s.endCommands f k) := by
  unfold State.endCommands
  refine State.Books.forAll _ _ (fun s c => ?_) s
  split
  · exact State.finish_books s _ _ _
  · exact (State.putCmd_books s f _).trans (State.finishParts_books _ _ _ _)

theorem State.agePatience_books (s : State) (f : Nat) : s.Books (s.agePatience f) := by
  unfold State.agePatience
  exact State.Books.ite rfl rfl

theorem State.enterFaulted_books (s : State) (f : Nat) (x : FaultSpec) : s.Books (s.enterFaulted f x) :=
  (((State.agePatience_books s f).trans (State.endSegment_books _ _ _)).trans (State.updForme_books _ _ _)).trans
    (State.endCommands_books _ _ _)

theorem State.faultOnly_books (s : State) (f : Nat) (x : FaultSpec) : s.Books (s.faultOnly f x) := by
  unfold State.faultOnly
  exact State.Books.ite (State.Books.ite ((State.post_books s _).trans (State.enterFaulted_books _ _ _)) (State.post_books s _))
    (State.Books.rfl' s)

/-- Where no field is pending-dark, none goes dark. -/
theorem State.settleDark_quiet (n : Nat) {s : State} (h : s.NoPending) : s.settleDark n = s := by
  cases n with
  | zero => rfl
  | succ n =>
    have hn : s.fields.find? (fun e => e.2.pendingDark && !s.mayWait e.1) = none := by
      rw [List.find?_eq_none]
      intro e he
      simp [h e he]
    simp [State.settleDark, hn]

/-- The fault of a forme changes only the books where no field waits for its layer quoin. -/
theorem State.faultForme_books {s : State} (h : s.NoPending) (f : Nat) (x : FaultSpec) : s.Books (s.faultForme f x) := by
  have k := State.faultOnly_books s f x
  unfold State.faultForme
  rw [State.settleDark_quiet _ (by unfold State.NoPending; rw [k.fields]; exact h)]
  exact k

theorem State.controlParity_books {s : State} (h : s.NoPending) (f : Option Nat) (k u : Nat) : s.Books (s.controlParity f k u) := by
  cases f with
  | none => exact State.post_books s _
  | some n =>
    have hb := State.noteUncorrected_books s (some n) k u 9 0 0
    exact State.Books.ite hb (hb.trans (State.faultForme_books (by unfold State.NoPending; rw [hb.fields]; exact h) _ _))

/-- A core fault stops the core and changes nothing else but the books, where no field waits for its layer quoin. -/
theorem State.coreFault_books {s : State} (h : s.NoPending) (c ix : Nat) (e : Stop) :
    (s.updCore c (·.stopped ix e)).Books (s.coreFault c ix e) := by
  have h' : (s.updCore c (·.stopped ix e)).NoPending := h
  unfold State.coreFault
  generalize s.updCore c (·.stopped ix e) = t at h' ⊢
  simp only []
  split
  · exact State.Books.rfl' t
  · exact State.faultForme_books h' _ _

end Sys2Proof.Machine
end

