-- ==== Sys2Proof/Laws/Commands.lean ====
section
/-! SUPPORT. What the shared operations do once: stores to host memory, the start of a ring's command, a request at a station, and a
frame at a port. -/

namespace Sys2Proof.Machine

/-! ### Host memory -/

theorem Mem.find_put (m : Mem) (a : Nat) (b : Byte) (x : Nat) :
    (m.put a b).find? (fun e => e.1 == x) = if x = a then some (a, b) else m.find? (fun e => e.1 == x) := by
  have h : ∀ l : Mem, (∀ e ∈ l, e.1 ≠ a) →
      (Map.insert l a b).find? (fun e => e.1 == x) = if x = a then some (a, b) else l.find? (fun e => e.1 == x) := by
    intro l
    induction l with
    | nil =>
      intro _
      by_cases e : x = a
      · simp [Map.insert, e]
      · have : ¬ a = x := fun h => e h.symm
        simp [Map.insert, e, this]
    | cons y t ih =>
      intro hl
      obtain ⟨k, w⟩ := y
      have hk : k ≠ a := hl (k, w) (by simp)
      have it := ih (fun e he => hl e (by simp [he]))
      unfold Map.insert
      by_cases hlt : a < k
      · by_cases e : x = a
        · simp [hlt, e]
        · have : ¬ a = x := fun h => e h.symm
          simp [hlt, e, this]
      · by_cases hkx : k = x
        · subst hkx
          simp [hlt, hk]
        · simp [hlt, hkx, it]
  have g : ∀ l : Mem, x ≠ a → (Map.erase l a).find? (fun e => e.1 == x) = l.find? (fun e => e.1 == x) := by
    intro l hx
    induction l with
    | nil => rfl
    | cons y t ih =>
      obtain ⟨k, w⟩ := y
      simp only [Map.erase] at ih
      by_cases hk : k = a
      · have : ¬ a = x := fun h => hx h.symm
        subst hk
        simpa [Map.erase, this] using ih
      · by_cases hkx : k = x
        · subst hkx
          simp [Map.erase, hk]
        · simpa [Map.erase, hk, hkx] using ih
  rw [Mem.put, h _ (Map.erase_ne m a)]
  by_cases e : x = a
  · rw [if_pos e, if_pos e]
  · rw [if_neg e, if_neg e, g m e]

/-- The byte of a state whose host memory is `m`. -/
theorem State.hostByte_mem {s t : State} (h : t.hostMem = s.hostMem) (x : Nat) : t.hostByte x = s.hostByte x := by
  unfold State.hostByte
  rw [h]

theorem Mem.find_putN_out (b : Bytes) : ∀ (m : Mem) (a x : Nat), x < a ∨ a + b.length ≤ x →
    (m.putN a b).find? (fun e => e.1 == x) = m.find? (fun e => e.1 == x) := by
  induction b with
  | nil => intro m a x _; rfl
  | cons e t ih =>
    intro m a x h
    rw [List.length_cons] at h
    rw [Mem.putN, ih _ _ _ (by omega), Mem.find_put, if_neg (by omega)]

theorem Mem.find_putN_in (b : Bytes) : ∀ (m : Mem) (a i : Nat) (h : i < b.length),
    (m.putN a b).find? (fun e => e.1 == a + i) = some (a + i, b[i]) := by
  induction b with
  | nil => intro m a i h; exact absurd h (Nat.not_lt_zero _)
  | cons e t ih =>
    intro m a i h
    cases i with
    | zero => rw [Mem.putN, Mem.find_putN_out _ _ _ _ (by omega), Mem.find_put, if_pos (Nat.add_zero a)]; rfl
    | succ j =>
      have := ih (m.put a e) (a + 1) j (by rw [List.length_cons] at h; omega)
      rw [Mem.putN, show a + (j + 1) = a + 1 + j by omega, this]
      rfl

/-- A byte outside a store reads as before. -/
theorem State.hostByte_hostPut_out (s : State) (a : Nat) (b : Bytes) (psn : Bool) {x : Nat} (h : x < a ∨ a + b.length ≤ x) :
    (s.hostPut a b psn).hostByte x = s.hostByte x := by
  have e : (s.hostPut a b psn).hostMem = s.hostMem.putN a b := rfl
  simp only [State.hostByte, e, Mem.find_putN_out b _ _ _ h]

/-- A byte inside a store reads as it was stored. -/
theorem State.hostByte_hostPut_in (s : State) (a : Nat) (b : Bytes) (psn : Bool) {i : Nat} (h : i < b.length) :
    (s.hostPut a b psn).hostByte (a + i) = b[i] := by
  have e : (s.hostPut a b psn).hostMem = s.hostMem.putN a b := rfl
  simp only [State.hostByte, e, Mem.find_putN_in b _ _ _ h]

/-- Every store keeps host memory's canonical form, and reset's memory has it. -/
theorem State.hostPut_sorted (s : State) (a : Nat) (b : Bytes) (psn : Bool) (h : s.hostMem.sorted = true) :
    (s.hostPut a b psn).hostMem.sorted = true := Mem.putN_sorted b _ a h

theorem State.hostPutSlots_sorted (s : State) (a : Nat) (l : List Slot) (h : s.hostMem.sorted = true) :
    (s.hostPutSlots a l).hostMem.sorted = true := Mem.putN_sorted _ _ a h

theorem State.reset_sorted : State.reset.hostMem.sorted = true := rfl

theorem Station.init_wf : Station.init.mem.wf = true := rfl

/-! ### The start of a ring's command (R419-R424) -/

theorem State.startRing_none {s : State} {r : Nat} (h : s.startable r = none) (mine : Cmd → Bool) (run : State → Cmd → State) :
    s.startRing r mine run = s := by
  unfold State.startRing
  rw [h]

/-- What a ring does with its oldest entry, in the order of R420 to R424. -/
theorem State.startRing_some {s : State} {r : Nat} {e : Nat × Bytes} (h : s.startable r = some e) (mine : Cmd → Bool)
    (run : State → Cmd → State) :
    s.startRing r mine run =
      let c := s.headCmd r e
      if (s.ring r).depFails e.2 then
        (s.taken r c).finish r c { Compl.bare Config.skipped with value := (e.1 + 2 ^ 32 - 1) % 2 ^ 32 }
      else if ¬ isOpcode c.opcode then (s.taken r c).finish r c (Compl.badArg 0)
      else if ¬ mine c then s
      else match s.refusedAtStart r c with
        | some k => (s.taken r c).finish r c k
        | none => if (((run (s.taken r c) c).ring r).cmd c.sq).isSome then (run (s.taken r c) c).writeConsumer r else run (s.taken r c) c := by
  unfold State.startRing
  rw [h]
  rfl

/-- Every command of a ring has an opcode of R433. -/
theorem ringRows_opcode : ∀ p ∈ ringRows, isOpcode p.1 = true := by decide

/-- A command that starts runs, and the consumer line is written when it stays outstanding. -/
theorem State.startRing_starts {s : State} {r op : Nat} {c : Cmd} (h : s.starts r op c) (ho : isOpcode op = true) (mine : Cmd → Bool)
    (hm : mine c = true) (run : State → Cmd → State) :
    s.startRing r mine run = if (((run (s.taken r c) c).ring r).cmd c.sq).isSome then (run (s.taken r c) c).writeConsumer r
      else run (s.taken r c) c := by
  obtain ⟨e, he, hc, hop, hd, hr⟩ := h
  rw [State.startRing_some he, ← hc]
  simp only [hd, hop, ho, hm, hr, Bool.false_eq_true, if_false, not_true_eq_false]

/-! ### A request at a station, and a frame at a port -/

/-- A station serves a request of its operation: the request leaves the queue, the operation acts, and its answer enters the fabric. -/
theorem State.serve_serves {s : State} {n op : Nat} {m : Msg} (h : s.serves n op m) (act : Sta → Msg → Served) :
    s.serve n op Obs.quiet act = .next (
      let r := act ⟨s.updStation n (fun x => x.pop m), n, some m.forme, false⟩ m
      match r.answer with
      | none => r.st
      | some a => r.st.respond n m a.1 a.2) := by
  obtain ⟨hn, ht, hr, hp, htest, hok, hop, hh, _⟩ := h
  have u : (fun x : Station => (x.pop m).upsets Obs.quiet.upsets) = fun x => x.pop m := rfl
  have q : Obs.quiet.parity = false := rfl
  have c : s.cross n m = (some m, s) := by
    unfold State.cross
    simp [hr]
  unfold State.serve
  simp only [hn, ht, hh, c, hp, htest, hok, hop, u, q, ne_eq, not_true_eq_false, false_and, if_false, Bool.false_eq_true]
  cases (act ⟨s.updStation n (fun x => x.pop m), n, some m.forme, false⟩ m).answer <;> rfl

/-- A port that is fast enough for its line drops no frame. -/
theorem State.slowDrop_fast {s : State} {p : Nat} (h : 790 ≤ s.portMHz p) : s.slowDrop p = (false, s) :=
  if_neg (Nat.not_lt.mpr h)

/-- A frame of a type that a port takes acts, after the FEC blocks that came with it are counted. -/
theorem State.receive_framed {s : State} {p : Nat} {f : RxFrame} {typ : Nat} (h : s.framed p f typ) (ht : 1 ≤ typ ∧ typ < 13)
    (act : State → State) : s.receive p f typ act = act (s.countFec p f) := by
  obtain ⟨hl, hc, hm, hv, hty⟩ := h
  have a : ¬ (typ = 0 ∨ 13 ≤ typ) := by omega
  have b : ¬ ((3 : Nat) = 2) := by omega
  have m : (s.countFec p f).macOk p f = true := hm
  unfold State.receive
  simp only [hl, m, hv, hty, a, b, State.slowDrop_fast hc, ne_eq, not_true_eq_false, and_false, false_and, if_false, Bool.not_true,
    Bool.false_eq_true, false_or]

end Sys2Proof.Machine
end

