-- ==== Sys2Proof/Laws/Digest.lean ====
section
/-! SUPPORT. The length of a SHA-256 digest. -/

namespace Sys2Proof.Machine

theorem shaRound_length (k : Nat) (win st : List Nat) (h : st.length = 8) : (shaRound k win st).2.length = 8 := by
  unfold shaRound
  split
  · rfl
  · exact h

theorem shaRounds_length (l win st : List Nat) (h : st.length = 8) : (shaRounds l win st).length = 8 := by
  induction l generalizing win st with
  | nil => exact h
  | cons k t ih => exact ih _ _ (shaRound_length k win st h)

theorem shaBlocks_length (n : Nat) (b : Bytes) (h : List Nat) (hl : h.length = 8) : (shaBlocks n b h).length = 8 := by
  induction n generalizing b h with
  | zero => exact hl
  | succ n ih =>
    refine ih _ _ ?_
    rw [List.length_zipWith, hl, shaRounds_length _ _ _ hl]
    rfl

@[simp] theorem toBe32_length (n : Nat) : (toBe32 n).length = 4 := rfl

/-- A digest has 32 bytes. -/
@[simp] theorem sha256_length (b : Bytes) : (sha256 b).length = 32 := by
  have h : ∀ l : List Nat, (l.flatMap toBe32).length = 4 * l.length := by
    intro l
    induction l with
    | nil => rfl
    | cons x t ih =>
      rw [List.flatMap_cons, List.length_append, ih, toBe32_length, List.length_cons]
      omega
  rw [sha256, h, shaBlocks_length _ _ _ rfl]

end Sys2Proof.Machine
end

