-- ==== Sys2Proof/Laws/Issue.lean ====
section
/-! SUPPORT. What issuing an instruction comes to: the one lemma that the statements about a core's instructions cite. -/

namespace Sys2Proof.Machine

@[simp] theorem Core.upsets_quiet (x : Core) : x.upsets Obs.quiet = x := rfl
@[simp] theorem Obs.quiet_parity : Obs.quiet.parity = false := rfl
@[simp] theorem Obs.quiet_residue : Obs.quiet.residue = false := rfl
@[simp] theorem Obs.quiet_checker : Obs.quiet.checker = none := rfl

@[simp] theorem Cx.residueCheck_quiet (x : Cx) (u : Nat) : x.residueCheck false u = x := rfl
@[simp] theorem Cx.laneCheck_quiet (x : Cx) : x.laneCheck Obs.quiet = x := rfl

@[simp] theorem Cx.start_core (me : Nat) (x : Core) (n : Nat) : (Cx.start me x n).core = x := rfl
@[simp] theorem Cx.start_free (me : Nat) (x : Core) (n : Nat) : (Cx.start me x n).free = n := rfl
@[simp] theorem Cx.start_stop (me : Nat) (x : Core) (n : Nat) : (Cx.start me x n).stop = none := rfl
@[simp] theorem Cx.start_me (me : Nat) (x : Core) (n : Nat) : (Cx.start me x n).me = me := rfl
@[simp] theorem Cx.start_msgs (me : Nat) (x : Core) (n : Nat) : (Cx.start me x n).msgs = [] := rfl
@[simp] theorem Cx.start_evs (me : Nat) (x : Core) (n : Nat) : (Cx.start me x n).evs = [] := rfl
@[simp] theorem Cx.mapCore_start (me : Nat) (x : Core) (n : Nat) (f : Core → Core) :
    (Cx.start me x n).mapCore f = Cx.start me (f x) n := rfl
@[simp] theorem Cx.mapCore_core (x : Cx) (f : Core → Core) : (x.mapCore f).core = f x.core := rfl
@[simp] theorem Cx.mapCore_stop (x : Cx) (f : Core → Core) : (x.mapCore f).stop = x.stop := rfl

/-- A word of a core that runs is issued: its meaning works on the core past the word, and the step settles. -/
theorem State.issue_runs {s : State} {c row w : Nat} (h : s.runs c row w) (f : Nat → Cx → Cx) :
    s.issue c row Obs.quiet f = s.settleCore c (s.core c).pc (f w (Cx.start c (s.core c).advance s.free)) := by
  obtain ⟨⟨hi, hw, he, hr⟩, hl, hp⟩ := h
  have hf : (Cx.start c ((s.core c).upsets Obs.quiet) s.free).fetch = (w, Cx.start c (s.core c) s.free) := by
    simp only [Cx.fetch, Core.upsets_quiet, Cx.start_core, he]
    exact Prod.ext hw rfl
  have hp' : ((Cx.start c (s.core c) s.free).mapCore Core.advance).core.pred w = true := hp
  unfold State.issue
  simp only [hi, if_true, Obs.quiet_parity, Bool.false_eq_true, if_false, hf, Cx.start_stop, Option.isSome_none,
    hl, Bool.not_true, hr, hp']
  rfl

/-- A step of a core that reports nothing, sends nothing and counts nothing numeric changes the core and the draws only. -/
theorem State.settleCore_plain (s : State) (c ix : Nat) (x : Cx) (hm : x.msgs = []) (he : x.evs = []) (hs : x.stop = none)
    (hn : x.core.nc = (s.core c).nc) : s.settleCore c ix x = { s.setCore c x.core with free := x.free } := by
  unfold State.settleCore
  simp only [hm, he, hs, hn, State.forAll, List.foldl_nil, firstMismatch, bne_self_eq_false, Bool.and_false]
  cases State.formeOf { s.setCore c x.core with free := x.free } c <;> exact ite_self _

/-- A core that issues works in a device that does not wait to reset. -/
theorem State.issues_resetWait {s : State} {c : Nat} (h : s.issues c = true) : s.mgmt.resetWait = false := by
  unfold State.issues State.executing at h
  cases hf : s.formeOf c with
  | none => simp [hf] at h
  | some f => simp [hf] at h; exact h.2.2

/-- A step of a core that stops with a fault, and sends and reports nothing else: the core records the fault, and no other core
changes where no field waits for its layer quoin. -/
theorem State.settleCore_stop (s : State) (c ix : Nat) (x : Cx) (e : Stop) (hm : x.msgs = []) (he : x.evs = [])
    (hs : x.stop = some e) (hn : x.core.nc = (s.core c).nc) (hr : s.mgmt.resetWait = false) (hd : s.NoPending) :
    (s.settleCore c ix x).core c = x.core.stopped ix e ∧ ∀ d, d ≠ c → (s.settleCore c ix x).core d = s.core d := by
  have h : s.settleCore c ix x = State.coreFault { s.setCore c x.core with free := x.free } c ix e := by
    unfold State.settleCore
    simp only [hm, he, hs, hn, State.forAll, List.foldl_nil, bne_self_eq_false, Bool.and_false]
    cases State.formeOf { s.setCore c x.core with free := x.free } c <;> exact if_neg (by simp [hr])
  have hb := State.coreFault_books (s := { s.setCore c x.core with free := x.free }) hd c ix e
  rw [h]
  constructor
  · rw [hb.core c, State.core_updCore]
    exact congrArg (Core.stopped · ix e) (State.core_setCore s c x.core)
  · intro d hd
    rw [hb.core d, State.core_updCore_ne _ _ hd]
    exact State.core_setCore_ne s x.core hd

/-- An instruction whose meaning only changes the core. -/
theorem State.issue_pure {s : State} {c row w : Nat} (h : s.runs c row w) {f : Nat → Cx → Cx} {y : Core}
    (hf : f w (Cx.start c (s.core c).advance s.free) = Cx.start c y s.free) (hn : y.nc = (s.core c).nc) :
    s.issue c row Obs.quiet f = s.setCore c y := by
  rw [s.issue_runs h, hf, s.settleCore_plain c _ _ rfl rfl rfl hn]; rfl

/-- An instruction whose meaning stops its core with a fault. -/
theorem State.issue_stop {s : State} {c row w : Nat} (h : s.runs c row w) {f : Nat → Cx → Cx} {y : Core} {e : Stop} {n : Nat}
    (hd : s.NoPending) (hf : f w (Cx.start c (s.core c).advance s.free) = { Cx.start c y n with stop := some e }) (hn : y.nc = (s.core c).nc) :
    (s.issue c row Obs.quiet f).core c = y.stopped (s.core c).pc e ∧
      ∀ d, d ≠ c → (s.issue c row Obs.quiet f).core d = s.core d := by
  rw [s.issue_runs h, hf]
  exact s.settleCore_stop c _ _ e rfl rfl rfl hn (State.issues_resetWait h.1.1) hd

/-- A legal word whose predicate is false moves the issue index and does nothing else. -/
theorem State.issue_skip {s : State} {c row w : Nat} (h : s.fetches c row w) (hl : legal w = true) (hp : (s.core c).pred w = false)
    (f : Nat → Cx → Cx) : s.issue c row Obs.quiet f = s.setCore c (s.core c).advance := by
  obtain ⟨hi, hw, he, hr⟩ := h
  have hf : (Cx.start c ((s.core c).upsets Obs.quiet) s.free).fetch = (w, Cx.start c (s.core c) s.free) := by
    simp only [Cx.fetch, Core.upsets_quiet, Cx.start_core, he]
    exact Prod.ext hw rfl
  have hp' : ((Cx.start c (s.core c) s.free).mapCore Core.advance).core.pred w = false := hp
  unfold State.issue
  simp only [hi, if_true, Obs.quiet_parity, Bool.false_eq_true, if_false, hf, Cx.start_stop, Option.isSome_none,
    hl, Bool.not_true, hr, hp']
  rw [State.settleCore_plain]
  all_goals rfl

/-- An illegal word stops its core with ILLEGAL and the word. -/
theorem State.issue_illegal {s : State} {c row w : Nat} (h : s.fetches c row w) (hl : legal w = false)
    (hd : s.NoPending) (f : Nat → Cx → Cx) : (s.issue c row Obs.quiet f).core c = (s.core c).stopped (s.core c).pc ⟨1, w, 0⟩ := by
  obtain ⟨hi, hw, he, hr⟩ := h
  have hf : (Cx.start c ((s.core c).upsets Obs.quiet) s.free).fetch = (w, Cx.start c (s.core c) s.free) := by
    simp only [Cx.fetch, Core.upsets_quiet, Cx.start_core, he]
    exact Prod.ext hw rfl
  unfold State.issue
  simp only [hi, if_true, Obs.quiet_parity, Bool.false_eq_true, if_false, hf, Cx.start_stop, Option.isSome_none,
    hl, Bool.not_false]
  exact (s.settleCore_stop c _ _ _ rfl rfl rfl rfl (State.issues_resetWait hi) hd).1

/-- The command of another row leaves the state as it is. -/
theorem State.issue_other {s : State} {c row w row' : Nat} (h : s.fetches c row' w) (hl : legal w = true) (hne : row' ≠ row)
    (f : Nat → Cx → Cx) : s.issue c row Obs.quiet f = s := by
  obtain ⟨hi, hw, he, hr⟩ := h
  have hf : (Cx.start c ((s.core c).upsets Obs.quiet) s.free).fetch = (w, Cx.start c (s.core c) s.free) := by
    simp only [Cx.fetch, Core.upsets_quiet, Cx.start_core, he]
    exact Prod.ext hw rfl
  unfold State.issue
  have : ¬ Sys2Proof.Machine.rowOf w = row := by rw [hr]; exact hne
  simp only [hi, if_true, Obs.quiet_parity, Bool.false_eq_true, if_false, hf, Cx.start_stop, Option.isSome_none,
    hl, Bool.not_true, this]

end Sys2Proof.Machine
end

