-- ==== Sys2Proof/Tests/Slice0.lean ====
section
/-! SUPPORT. Tests: the checks of WellFormed, one step of many commands against values worked out from the specification, and for each
statement that has hypotheses a state and operands that meet them. -/

namespace Sys2Proof.Tests
open Sys2Proof Sys2Proof.Machine

set_option Elab.async false

/-! ### Ill-formed commands -/

theorem test_wellFormed_core : (Instr.nop 229375 Obs.quiet).wellFormed = true ∧ (Instr.nop 229376 Obs.quiet).wellFormed = false := by
  decide
theorem test_wellFormed_cluster :
    (Instr.loopLock 14335).wellFormed = true ∧ (Instr.loopLock 14336).wellFormed = false := by decide
theorem test_wellFormed_field :
    (Instr.droopTrip 55).wellFormed = true ∧ (Instr.droopTrip 56).wellFormed = false := by decide
theorem test_wellFormed_station :
    (Instr.selfRefreshEntry 447).wellFormed = true ∧ (Instr.selfRefreshEntry 448).wellFormed = false := by decide
theorem test_wellFormed_port :
    (Instr.helloTimer 15).wellFormed = true ∧ (Instr.helloTimer 16).wellFormed = false := by decide
theorem test_wellFormed_bay :
    (Instr.hostLinkDown 1).wellFormed = true ∧ (Instr.hostLinkDown 2).wellFormed = false := by decide
theorem test_wellFormed_forme :
    (Instr.deadlock 63).wellFormed = true ∧ (Instr.deadlock 64).wellFormed = false := by decide
theorem test_wellFormed_ring :
    (Instr.mark 74).wellFormed = true ∧ (Instr.mark 75).wellFormed = false := by decide
theorem test_wellFormed_parts :
    (Instr.steerForward 0 4 Obs.quiet).wellFormed = false ∧ (Instr.route 0 5 0 LinkObs.quiet).wellFormed = false ∧
    (Instr.routerForward 0 0 2).wellFormed = false ∧ (Instr.routerForward 0 6 0).wellFormed = false ∧
    (Instr.reduceForward 0 16 true).wellFormed = false ∧ (Instr.galleyWrite 0 2).wellFormed = false ∧
    (Instr.spillRefill 0 16).wellFormed = false ∧ (Instr.quoinRelease 0 16).wellFormed = false ∧
    (Instr.hostLinkRetrain 0 0).wellFormed = false ∧ (Instr.hostLinkRetrain 0 4).wellFormed = false ∧
    (Instr.clipPairLost 2).wellFormed = false := by decide

/-! ### States to test on -/

/-- A READY module: every field enabled, field 0 powered, cluster 0 clocked and in forme 0, which runs on it. -/
def ready : State :=
  { State.reset with
    enable := some { part := 1, fields := 2 ^ 56 - 1, ports := 2 ^ 16 - 1, bays := 3, units := 229376, maxCap := 150, signed := [],
                     vendorPk := [] }
    regs := { Regs.init with devState := 4, step := 10, helperEn := 0x7FFF }
    fields := [(0, { Field.init with powered := true })]
    clusters := [(0, { Cluster.init with forme := some 0, ladder := 33, locked := true, qual0 := true })]
    formes := [(0, { Forme.init with state := 3, viewFields := 1, near := [(0, { base := 0, limit := 2 ^ 42 - 1, rights := 15 })],
                                     host := [(0, { base := 0, limit := 2 ^ 52, rights := 15 })] })]
    mgmt := { Mgmt.init with started := true, seqNext := 5 } }

/-- That module with core 0 as given. -/
def withCore (x : Core) : State := { ready with cores := [(0, x)] }

/-- Core 0 running a block whose next word is `w`. -/
def running (w : Nat) : Core := { Core.init with st := .run, istore := [(0, BitVec.ofNat 32 w)] }

/-- The state after a command. -/
def after (i : Instr) (s : State) : State := match exec i s with
  | .next t => t
  | _ => s

/-- An instruction word with its opcode and its fields d, a, b and the low seven bits. -/
def word (op d a b fn : Nat) : Nat := op * 2 ^ 26 + d * 2 ^ 17 + a * 2 ^ 12 + b * 2 ^ 7 + fn

/-- A word for each row of a core's instructions. -/
def rowWords : List (Nat × Nat) :=
  [(64, 0), (65, 1), (66, 2), (67, 3)] ++
  [0x01, 0x02, 0x03, 0x04, 0x05, 0x06, 0x07, 0x08, 0x09, 0x0A, 0x0B, 0x0C, 0x0D, 0x0E, 0x0F, 0x10, 0x11, 0x12, 0x13, 0x15, 0x16,
   0x18, 0x19, 0x1A, 0x1B, 0x1C, 0x1D, 0x1E, 0x1F, 0x20, 0x21, 0x22, 0x23, 0x24, 0x25, 0x26, 0x27, 0x28].map (fun op => (op, word op 0 0 0 0)) ++
  [(0x2A, 0x2A * 2 ^ 26 + 2 * 2 ^ 13)] ++
  [0x2B, 0x2C, 0x2D, 0x2E, 0x30, 0x31, 0x32, 0x33, 0x38, 0x39, 0x3A, 0x3B, 0x3C, 0x3D, 0x3E, 0x3F].map (fun op => (op, word op 0 0 0 0))

/-- The check of `State.runs` as a test. -/
def runsNow (s : State) (row w : Nat) : Bool :=
  s.issues 0 && decide (s.wordAtPc 0 = w) && decide (Map.get Cw.clean (s.core 0).iecc ((s.core 0).pc / 4) = .clean)
    && decide (Sys2Proof.Machine.rowOf w = row) && legal w && (s.core 0).pred w

theorem runs_of {s : State} {row w : Nat} (h : runsNow s row w = true) : s.runs 0 row w := by
  simp only [runsNow, Bool.and_eq_true, decide_eq_true_eq] at h
  exact ⟨⟨h.1.1.1.1.1, h.1.1.1.1.2, h.1.1.1.2, h.1.1.2⟩, h.1.2, h.2⟩

/-- Every row of a core's instructions has a word that a core runs; the statements about instructions without further hypotheses are met
there. -/
theorem witness_controlInstructions : coreRows.map (·.1) = rowWords.map (·.1) ∧
    ∀ p ∈ rowWords, (withCore (running p.2)).runs 0 p.1 p.2 := by
  refine ⟨by decide, fun p h => runs_of ?_⟩
  have : rowWords.all (fun p => runsNow (withCore (running p.2)) p.1 p.2) = true := by decide +kernel
  exact List.all_eq_true.mp this p h

/-- The ready module whose core 0 runs `w`, changed by `f`. -/
def prog (w : Nat) (f : Core → Core) : State := withCore (f (running w))

/-- Core 0 after a command. -/
def coreAfter (i : Instr) (s : State) : Core := (after i s).core 0

/-- A vector register by its lanes. -/
def lanes (l : List Nat) : VReg := { bits := BitVec.ofNat 512 (l.foldr (fun x a => x + 2 ^ 32 * a) 0), poison := 0 }

/-- Scalar registers. -/
def sregs (l : List (Nat × Nat)) : Map Word := l.map (fun e => (e.1, BitVec.ofNat 32 e.2))

/-! ### Issue, control, scalars -/

theorem witness_registerFiles : (3 : Nat) ≠ 0 ∧ (7 : Nat) ≠ 0 := by decide

theorem witness_issueRules :
    (∀ p ∈ rowWords, (withCore (running (p.2 + 2 ^ 22))).fetches 0 p.1 (p.2 + 2 ^ 22) ∧ legal (p.2 + 2 ^ 22) = true ∧
      ((withCore (running (p.2 + 2 ^ 22))).core 0).pred (p.2 + 2 ^ 22) = false) ∧
    ((withCore (running (word 0x09 0 0 0 0x60))).fetches 0 0x09 (word 0x09 0 0 0 0x60) ∧ legal (word 0x09 0 0 0 0x60) = false) ∧
    (withCore (running 0)).fetches 0 64 0 ∧ legal 0 = true ∧ (64 : Nat) ≠ 0x04 := by
  have h : rowWords.all (fun p => let w := p.2 + 2 ^ 22; let s := withCore (running w)
    s.issues 0 && decide (s.wordAtPc 0 = w) && decide (Map.get Cw.clean (s.core 0).iecc ((s.core 0).pc / 4) = .clean)
    && decide (Sys2Proof.Machine.rowOf w = p.1) && legal w && !(s.core 0).pred w) = true := by decide +kernel
  refine ⟨fun p hp => ?_, by unfold State.fetches; decide +kernel, by unfold State.fetches; decide +kernel, by decide, by decide⟩
  have := List.all_eq_true.mp h p hp
  simp only [Bool.and_eq_true, decide_eq_true_eq, Bool.not_eq_true'] at this
  exact ⟨⟨this.1.1.1.1.1, this.1.1.1.1.2, this.1.1.1.2, this.1.1.2⟩, this.1.2, this.2⟩

/-- R164: an illegal word stops its core even when its predicate is false, with the word in CS_FAULT_INFO. -/
theorem test_illegal_whatever_the_predicate :
    let x := coreAfter (.shi 0 Obs.quiet) (withCore (running (word 0x09 0 0 0 0x60 + 2 ^ 22)))
    x.st = .stopped ∧ x.faultInfo = BitVec.ofNat 32 (word 0x09 0 0 0 0x60 + 2 ^ 22) ∧ x.fault.toNat % 256 = 1 := by decide +kernel

/-- Every fn of the scalar groups has a word that runs (R170). -/
theorem witness_scalarInstructions :
    (∀ fn < 16, (prog (word 0x04 1 2 0 fn) id).runs 0 0x04 (word 0x04 1 2 0 fn)) ∧
    (∀ fn < 6, (prog (word 0x03 1 2 3 fn) id).runs 0 0x03 (word 0x03 1 2 3 fn)) ∧
    (∀ fn < 6, (prog (word 0x0C 1 2 3 fn) id).runs 0 0x0C (word 0x0C 1 2 3 fn)) ∧
    (∀ k < 6, (prog (word 0x0D 1 2 0 (k * 512)) id).runs 0 0x0D (word 0x0D 1 2 0 (k * 512))) ∧
    ∀ k < 3, (prog (word 0x09 1 2 0 (k * 32 + 31)) id).runs 0 0x09 (word 0x09 1 2 0 (k * 32 + 31)) := by
  refine ⟨?_, ?_, ?_, ?_, ?_⟩ <;> intro k h <;> apply runs_of <;> revert k <;> decide +kernel

/-- R171: DBNZ branches while the decremented register is not zero, and falls through at zero. -/
theorem test_dbnz :
    (coreAfter (.dbnz 0 Obs.quiet) (prog (word 0x02 1 0 0 9) (fun x => { x with s := sregs [(1, 2)] }))).pc = 9 ∧
    (coreAfter (.dbnz 0 Obs.quiet) (prog (word 0x02 1 0 0 9) (fun x => { x with s := sregs [(1, 1)] }))).pc = 1 := by decide +kernel

/-- R170: MULH of -1 and 2 is the high half of -2; CLZ of 1 is 31 and of 0 is 32. -/
theorem test_salu :
    (coreAfter (.salu 0 Obs.quiet) (prog (word 0x04 3 1 2 9) (fun x => { x with s := sregs [(1, 0xFFFFFFFF), (2, 2)] }))).rdS 3 = 0xFFFFFFFF ∧
    (coreAfter (.salu 0 Obs.quiet) (prog (word 0x04 3 1 0 15) (fun x => { x with s := sregs [(1, 1)] }))).rdS 3 = 31 ∧
    (coreAfter (.salu 0 Obs.quiet) (prog (word 0x04 3 1 0 15) id)).rdS 3 = 32 := by decide +kernel

/-- R170: ADDI sign-extends and wraps; a write of s0 is discarded (R55). -/
theorem test_addi :
    (coreAfter (.addi 0 Obs.quiet) (prog (word 0x05 1 1 31 127) (fun x => { x with s := sregs [(1, 0)] }))).rdS 1 = 0xFFFFFFFF ∧
    (coreAfter (.addi 0 Obs.quiet) (prog (word 0x05 0 1 0 1) id)).rdS 0 = 0 := by decide +kernel

/-- MOVH keeps the low half (R169), and CMPI compares with the sign (R170). -/
theorem test_movh_cmpi :
    (coreAfter (.movh 0 Obs.quiet) (prog (0x0B * 2 ^ 26 + 1 * 2 ^ 17 + 0x8001) (fun x => { x with s := sregs [(1, 0x12345678)] }))).rdS 1
      = 0x80015678 ∧
    (coreAfter (.cmpi 0 Obs.quiet) (prog (word 0x0D 1 2 0 (2 * 512 + 0)) (fun x => { x with s := sregs [(2, 0x80000000)] }))).rdP 1 = true := by
  decide +kernel

theorem witness_csInstructions :
    icCounter 0x3FF = false ∧ csReserved 0x008 0x2A = false ∧ csReserved 0x008 3 = true ∧
    (∀ tok ∈ [none, some (1, ⟨Msg.mk0 MT.data 0 0 0 0 1 0 0 [], 0⟩)], let x := (prog (word 0x15 3 1 0 0) (fun x => { x with
        s := sregs [(1, 0x20)], steers := [(3, { cfg := 0x10, run := 0, sel := 0, tok := tok })] })).core 0
      (x.steer 3).tok = tok ∧ wordAt (x.rdS 1 &&& 0xFFFF1) 7 4 ≠ (x.steer 3).ctl) ∧
    (prog (word 0x16 0 0 0 0x7F) id).runs 0 0x16 (word 0x16 0 0 0 0x7F) ∧
    (prog (word 0x13 0 1 0 8) (fun x => { x with s := sregs [(1, 3)] })).runs 0 0x13 (word 0x13 0 1 0 8) ∧
    csReserved (bits (word 0x13 0 1 0 8) 9 0) (((prog (word 0x13 0 1 0 8) (fun x => { x with s := sregs [(1, 3)] })).core 0).rdS 1) = true := by
  have runs : ∀ p ∈ [(0x16, word 0x16 0 0 0 0x7F, 0), (0x13, word 0x13 0 1 0 8, 3)],
      (prog p.2.1 (fun x => if p.2.2 = 0 then x else { x with s := sregs [(1, p.2.2)] })).runs 0 p.1 p.2.1 :=
    fun p h => runs_of (by revert p; decide +kernel)
  exact ⟨rfl, by decide, by decide, by decide +kernel, runs _ (.head _), runs _ (.tail _ (.head _)), by decide +kernel⟩

/-- R11: CS_FLAGS is cleared where the written bits are one; R173: a CSW to an index that is not listed is ignored. -/
theorem test_csw :
    (coreAfter (.csw 0 Obs.quiet) (prog (word 0x13 0 1 0 16) (fun x => { x with flags := 0x17, s := sregs [(1, 5)] }))).flags = 0x12 ∧
    (coreAfter (.csw 0 Obs.quiet) (prog (word 0x13 0 1 7 127) (fun x => { x with s := sregs [(1, 5)] })))
      = { running (word 0x13 0 1 7 127) with pc := 1, s := sregs [(1, 5)] } := by decide +kernel

/-! ### Core store -/

/-- A load or store at `a`, whose base register holds it. -/
def storing (op a : Nat) : State := prog (word op 1 2 0 0) (fun x => { x with s := sregs [(2, a)] })

theorem witness_coreStoreAccess :
    (∀ op ∈ [0x0E, 0x0F], ∀ a ∈ [0, 0x3FFFC, 0x40000, 0xFFFFFFFF, 3], (storing op a).runs 0 op (word op 1 2 0 0) ∧
      effAddr (((storing op a).core 0).rdS 2) (bits (word op 1 2 0 0) 11 0) 4 = a) ∧
    (∀ op ∈ [0x10, 0x11], ∀ a ∈ [0, 0x3FFC0, 0x40000, 0xFFFFFFC0, 32], (storing op a).runs 0 op (word op 1 2 0 0) ∧
      effAddr (((storing op a).core 0).rdS 2) (bits (word op 1 2 0 0) 11 0) 64 = a) ∧
    ((storing 0x11 0x3FFC0).core 0).inSpill 0x3FFC0 64 = false ∧ ((storing 0x11 0x3FFC0).core 0).unfenced = [] ∧
    ∀ k, Map.get Cw.clean ((storing 0x11 0x3FFC0).core 0).ecc k = .clean := by
  refine ⟨fun op ho a ha => ⟨runs_of ?_, ?_⟩, fun op ho a ha => ⟨runs_of ?_, ?_⟩, by decide, by decide, fun k => rfl⟩ <;>
    (revert a; revert op; decide +kernel)

/-- R8: words are little-endian; R174: the last word of the store can be written, and the first address beyond it stops the core. -/
theorem test_store :
    (coreAfter (.stw 0 Obs.quiet) (prog (word 0x0F 1 2 0 0) (fun x => { x with s := sregs [(1, 0x11223344), (2, 0x3FFFC)] }))).store
      = [(0x3FFFC, 0x44), (0x3FFFD, 0x33), (0x3FFFE, 0x22), (0x3FFFF, 0x11)] ∧
    (coreAfter (.ldw 0 Obs.quiet) (storing 0x0E 0x40000)).fault.toNat % 256 = 2 ∧
    (coreAfter (.ldw 0 Obs.quiet) (storing 0x0E 2)).fault.toNat % 256 = 3 := by decide +kernel

/-! ### Vector unit -/

/-- Core 0 about to run `w` with two vector registers. -/
def vec (w : Nat) (a b : VReg) : State := prog w (fun x => { x with v := [(2, a), (3, b)] })

theorem witness_vectorArithmetic :
    (∀ op ∈ [0x18, 0x19, 0x1A], (prog (word op 1 2 3 0x60) id).runs 0 op (word op 1 2 3 0x60) ∧ bits (word op 1 2 3 0x60) 6 5 = 3) ∧
    (∀ fn < 9, (prog (word 0x23 1 2 3 fn) id).runs 0 0x23 (word 0x23 1 2 3 fn)) ∧
    (∀ op ∈ [0x18, 0x19, 0x1A, 0x1B, 0x1C, 0x1D], ∀ t < 3, ∀ r < 3,
      (prog (word op 1 2 3 (32 * t + 8 * r)) id).runs 0 op (word op 1 2 3 (32 * t + 8 * r)) ∧ bits (word op 1 2 3 (32 * t + 8 * r)) 6 5 ≠ 3) := by
  refine ⟨fun op h => ⟨runs_of ?_, ?_⟩, fun fn h => runs_of ?_, fun op h t ht r hr => ⟨runs_of ?_, ?_⟩⟩
  · revert op; decide +kernel
  · revert op; decide +kernel
  · revert fn; decide +kernel
  · revert r; revert t; revert op; decide +kernel
  · revert r; revert t; revert op; decide +kernel

/-- R170: ADDS saturates at the INT32 limits, and lane-wise VADD of INT32 wraps. -/
theorem test_vint :
    ((coreAfter (.vint 0 Obs.quiet) (vec (word 0x23 1 2 3 6) (lanes [0x7FFFFFFF, 0x80000000]) (lanes [1, 0xFFFFFFFF]))).rdV 1).lane 0 = 0x7FFFFFFF ∧
    ((coreAfter (.vint 0 Obs.quiet) (vec (word 0x23 1 2 3 6) (lanes [0x7FFFFFFF, 0x80000000]) (lanes [1, 0xFFFFFFFF]))).rdV 1).lane 1 = 0x80000000 ∧
    ((coreAfter (.vadd 0 Obs.quiet) (vec (word 0x18 1 2 3 0x60) (lanes [0x7FFFFFFF]) (lanes [1]))).rdV 1).lane 0 = 0x80000000 := by decide +kernel

/-- FP32: 1 + 2^-24 ties to even, 3 × 1.5 is 4.5, and VFMS takes the product away (R144, R176). -/
theorem test_vector_fp32 :
    ((coreAfter (.vadd 0 Obs.quiet) (vec (word 0x18 1 2 3 0) (lanes [0x3F800000]) (lanes [0x33800000]))).rdV 1).lane 0 = 0x3F800000 ∧
    ((coreAfter (.vmul 0 Obs.quiet) (vec (word 0x1A 1 2 3 0) (lanes [0x40400000]) (lanes [0x3FC00000]))).rdV 1).lane 0 = 0x40900000 ∧
    ((coreAfter (.vfma 0 Obs.quiet) (vec (word 0x1B 2 2 3 2) (lanes [0x40400000]) (lanes [0x40000000]))).rdV 2).lane 0 = 0xC0400000 := by
  decide +kernel

theorem witness_vectorMoves :
    (∀ b < 3, ∀ t < 4, (prog (word 0x1E 1 2 b (32 * t)) id).runs 0 0x1E (word 0x1E 1 2 b (32 * t))) ∧
    (∀ t < 4, (prog (word 0x1F 1 2 0 (32 * t)) id).runs 0 0x1F (word 0x1F 1 2 0 (32 * t))) ∧
    ((prog (word 0x20 1 2 15 0) id).runs 0 0x20 (word 0x20 1 2 15 0) ∧ (((prog (word 0x20 1 2 15 0) id).core 0).rdV 2).psn 15 = false ∧
      ((vec (word 0x20 1 2 15 0) { bits := 0, poison := 0x8000 } VReg.init).core 0 |>.rdV 2).psn 15 = true) ∧
    (prog (word 0x21 1 2 14 0) id).runs 0 0x21 (word 0x21 1 2 14 0) ∧
    (∀ k < 4, ∀ t < 4, (prog (word 0x24 1 2 3 (32 * t + 4 * k)) id).runs 0 0x24 (word 0x24 1 2 3 (32 * t + 4 * k))) ∧
    (decodeNum 0 0x7FC00000).cls = 3 ∧ (decodeNum 2 0x3C00).cls ≠ 3 := by
  refine ⟨fun b hb t ht => runs_of ?_, fun t ht => runs_of ?_, ⟨runs_of ?_, ?_, ?_⟩, runs_of ?_, fun k hk t ht => runs_of ?_, ?_, ?_⟩
  · revert t; revert b; decide +kernel
  · revert t; decide +kernel
  · decide +kernel
  · decide +kernel
  · decide +kernel
  · decide +kernel
  · revert t; revert k; decide +kernel
  · decide +kernel
  · decide +kernel

/-- R178: a NaN is not equal to itself, and -0 equals +0. -/
theorem test_vcmp :
    ((coreAfter (.vcmp 0 Obs.quiet) (vec (word 0x24 1 2 3 0) (lanes [0x7FC00000, 0x80000000]) (lanes [0x7FC00000, 0]))).rdV 1).lane 0 = 0 ∧
    ((coreAfter (.vcmp 0 Obs.quiet) (vec (word 0x24 1 2 3 0) (lanes [0x7FC00000, 0x80000000]) (lanes [0x7FC00000, 0]))).rdV 1).lane 1 = 0xFFFFFFFF := by
  decide +kernel

/-- VROW with base 14 gives lanes 14 and 15 eight times each; VSHUF takes lane 3 for index 19 (R169). -/
theorem test_vrow_vshuf :
    ((coreAfter (.vrow 0 Obs.quiet) (vec (word 0x21 1 2 14 0) (lanes (List.range 16)) VReg.init)).rdV 1) = lanes [14, 14, 14, 14, 14, 14, 14, 14, 15, 15, 15, 15, 15, 15, 15, 15] ∧
    ((coreAfter (.vshuf 0 Obs.quiet) (vec (word 0x22 1 2 3 0) (lanes (List.range 16)) (lanes [19]))).rdV 1).lane 0 = 3 := by decide +kernel

theorem witness_vectorRounding :
    (∀ r < 3, (prog (word 0x26 1 2 29 (8 * r)) id).runs 0 0x26 (word 0x26 1 2 29 (8 * r))) ∧
    (∀ src ∈ [0, 1, 9], ∀ dst ∈ [0, 1, 9], (prog (0x27 * 2 ^ 26 + 4 * 2 ^ 17 + 2 * 2 ^ 12 + src * 2 ^ 8 + dst * 2 ^ 4) id).runs 0 0x27
      (0x27 * 2 ^ 26 + 4 * 2 ^ 17 + 2 * 2 ^ 12 + src * 2 ^ 8 + dst * 2 ^ 4)) ∧
    (∀ b < 6, (prog (word 0x28 1 2 b 0) id).runs 0 0x28 (word 0x28 1 2 b 0)) := by
  refine ⟨fun r h => runs_of ?_, fun s hs d hd => runs_of ?_, fun b h => runs_of ?_⟩
  · revert r; decide +kernel
  · revert d; revert s; decide +kernel
  · revert b; decide +kernel

/-- VSUM adds exactly: 2^24 + 1 + 1 is 2^24 + 2 (R153); log2 of a negative number is the canonical NaN (R181). -/
theorem test_vsum_vtr :
    ((coreAfter (.vsum 0 Obs.quiet) (prog (word 0x26 1 2 2 0) (fun x => { x with v := [(2, lanes [0x4B800000]), (3, lanes [0x3F800000]),
      (4, lanes [0x3F800000])] }))).rdV 1).lane 0 = 0x4B800001 ∧
    ((coreAfter (.vtr 0 Obs.quiet) (vec (word 0x28 1 2 1 0) (lanes [0xBF800000]) VReg.init)).rdV 1).lane 0 = 0x7FC00000 := by decide +kernel

/-! ### Product engine -/

/-- Core 0 about to multiply v0 by v8 in bank 0 of slice 0: BF16, depth 1, the bank cleared first, product pair s2. -/
def multiplying : Core :=
  { running (0x2A * 2 ^ 26 + 2 * 2 ^ 13 + 8 * 2 ^ 3) with
    s := sregs [(2, 1 + 16 + 2 ^ 13 + 2 ^ 23)], v := [(0, lanes [0x40003F80]), (8, lanes [0x4040])] }

theorem witness_productEngine :
    let w := 0x2A * 2 ^ 26 + 2 * 2 ^ 13 + 8 * 2 ^ 3
    let d0 := 1 + 16 + 2 ^ 13 + 2 ^ 23
    ((withCore multiplying).runs 0 0x2A w ∧ prodLegal w d0 0 0 = true ∧ bits d0 20 19 = 0 ∧ bits d0 22 21 = 0 ∧ bit d0 8 = false ∧
      bit d0 9 = false ∧ bits w 12 8 + (4 * 1 * fmtStream 1 + 511) / 512 ≤ 32 ∧ bits w 7 3 + (8 * 1 * fmtStream 1 + 511) / 512 ≤ 32) ∧
    (prog (0x2B * 2 ^ 26 + 2 * 2 ^ 13) (fun x => { x with s := sregs [(2, 0xFFF)] })).runs 0 0x2B (0x2B * 2 ^ 26 + 2 * 2 ^ 13) ∧
    bits 0xFFF 31 12 = 0 ∧ bits 0x1000 31 12 ≠ 0 := by
  exact ⟨⟨runs_of (by decide +kernel), by decide +kernel⟩, runs_of (by decide +kernel), by decide⟩

/-- Row 1 of the left operand is 2 and column 0 of the right one is 3: element (1, 0) is 6 and element (0, 0) is 3 (R130). -/
theorem test_prod :
    let x := coreAfter (.prod 0 Obs.quiet) (withCore multiplying)
    (encodeNum 0 (x.rdAcc 0 0 8).value Rnd.rne).1 = 0x40C00000 ∧ (encodeNum 0 (x.rdAcc 0 0 0).value Rnd.rne).1 = 0x40400000 ∧
      (encodeNum 0 (x.rdAcc 0 0 1).value Rnd.rne).1 = 0 := by decide +kernel

theorem witness_bankReads :
    (∀ f < 12, ∀ r < 3, (prog (0x2C * 2 ^ 26 + f * 2 ^ 9 + r * 2 ^ 7) id).runs 0 0x2C (0x2C * 2 ^ 26 + f * 2 ^ 9 + r * 2 ^ 7)) ∧
    (∀ sl < 3, ∀ bk < 4, (prog (0x2D * 2 ^ 26 + sl * 2 ^ 20 + bk * 2 ^ 18) id).runs 0 0x2D (0x2D * 2 ^ 26 + sl * 2 ^ 20 + bk * 2 ^ 18)) ∧
    (prog (0x2E * 2 ^ 26 + 30 * 2 ^ 8) id).runs 0 0x2E (0x2E * 2 ^ 26 + 30 * 2 ^ 8) := by
  refine ⟨fun f hf r hr => runs_of ?_, fun s hs b hb => runs_of ?_, runs_of (by decide +kernel)⟩
  · revert r; revert f; decide +kernel
  · revert b; revert s; decide +kernel

/-- An element of value 6. -/
def six : Acc := (Acc.init.addNum (.fin false 6 0)).1

/-- A drain with clr 1 to FP32 gives 6.0 in element 0 and clears the bank (R143, R191). -/
theorem test_drain :
    let x := coreAfter (.drain 0 Obs.quiet) (prog (0x2C * 2 ^ 26 + 4 * 2 ^ 13 + 2 ^ 4) (fun x => { x with acc := [(0, six)] }))
    (x.rdV 4).lane 0 = 0x40C00000 ∧ x.acc = [] := by decide +kernel

/-- LSTAT: the sum of row 0 is 6, its sum of squares 36, its largest magnitude 6 (R192). -/
theorem test_lstat :
    let x := coreAfter (.lstat 0 Obs.quiet) (prog (0x2D * 2 ^ 26 + 4 * 2 ^ 13) (fun x => { x with acc := [(0, six)] }))
    (x.rdV 4).lane 0 = 0x40C00000 ∧ (x.rdV 4).lane 4 = 0x42100000 ∧ (x.rdV 4).lane 8 = 0x40C00000 ∧ (x.rdV 4).lane 12 = 0 := by
  decide +kernel

/-! ### The transposing buffer -/

/-- Core 0 about to run `w` with half 1 in a state, owned by slice 2, with rows 0 and 1 due and row 0 written. -/
def half1 (w st : Nat) : State :=
  prog w (fun x => { x with h1 := { ctl := { state := st, owner := 2, width := 3, rows := 2, written := 1 }, data := [] } })

theorem witness_transposingBuffer :
    (∀ st < 4, (half1 (0x30 * 2 ^ 26 + 2 ^ 21 + 2 * 2 ^ 19) st).runs 0 0x30 (0x30 * 2 ^ 26 + 2 ^ 21 + 2 * 2 ^ 19)) ∧
    (∀ st < 4, (half1 (0x31 * 2 ^ 26 + 2 ^ 21 + 31 * 2 ^ 16) st).runs 0 0x31 (0x31 * 2 ^ 26 + 2 ^ 21 + 31 * 2 ^ 16)) ∧
    (∀ st < 4, (half1 (0x32 * 2 ^ 26 + 2 ^ 21 + 0xFFF) st).runs 0 0x32 (0x32 * 2 ^ 26 + 2 ^ 21 + 0xFFF)) ∧ 64 * 0x7FF + 64 ≤ 0x40000 ∧
    (∀ st < 4, (half1 (0x33 * 2 ^ 26 + 2 ^ 21 + 2 * 2 ^ 19) st).runs 0 0x33 (0x33 * 2 ^ 26 + 2 ^ 21 + 2 * 2 ^ 19)) ∧
    ((half1 0 1).core 0).half 1 = { ctl := { state := 1, owner := 2, width := 3, rows := 2, written := 1 }, data := [] } := by
  refine ⟨?_, ?_, ?_, by decide, ?_, by decide +kernel⟩ <;> intro st h <;> apply runs_of <;> revert st <;> decide +kernel

/-- The last row fills the half (R81); a claim of a filling half stops the core with TBUF and its half in CS_FAULT_INFO (R82). -/
theorem test_transposing :
    (coreAfter (.twrv 0 Obs.quiet) (half1 (0x31 * 2 ^ 26 + 2 ^ 21 + 1 * 2 ^ 16) 1)).h1.ctl.state = 2 ∧
    (let x := coreAfter (.tclaim 0 Obs.quiet) (half1 (0x30 * 2 ^ 26 + 2 ^ 21) 1)
     x.fault.toNat % 256 = 0x0E ∧ x.faultInfo = 1) ∧
    (coreAfter (.trel 0 Obs.quiet) (half1 (0x33 * 2 ^ 26 + 2 ^ 21 + 2 * 2 ^ 19) 2)).h1 = Half.init := by decide +kernel

/-! ### Channels -/

/-- A one-slot DATA message of forme 0 from core (1, 0) to core 0's galley 0, whose first word is `w`. -/
def datum (w : Nat) : Msg :=
  { Msg.mk0 MT.data 0 0 0 0 1 0 0 [{ data := BitVec.ofNat 256 w, lo := .clean, hi := .clean }] with tag := 7 }

/-- That message as an item at place 0. -/
def item (w : Nat) : Item := { msg := datum w, pos := 0 }

/-- A plain galley of 8 slots that listens with key 5. -/
def plain : Galley := { Galley.init with cfg := 1, geo := 0, lst := 0x80000005 }

/-- An OPEN port to galley 2 of core (1, 0), of two-slot messages, with credit 3. -/
def opened : Port := { Port.init with state := 2, size := 1, galley := 2, target := 1, credit := 3 }

theorem witness_channelControl :
    (∀ st ∈ [0, 1, 2, 3], (prog (0x38 * 2 ^ 26 + 15 * 2 ^ 18 + 1 * 2 ^ 13 + 2 * 2 ^ 8) (fun x => { x with
      s := sregs [(1, 0x3FE00), (2, 0xFFFFFF)], ports := [(15, { Port.init with state := st })] })).runs 0 0x38
      (0x38 * 2 ^ 26 + 15 * 2 ^ 18 + 1 * 2 ^ 13 + 2 * 2 ^ 8)) ∧ bits 0x3FE00 31 18 = 0 ∧ bits 0xFFFFFF 31 24 = 0 ∧
    Core.init.refusesOpen { Port.init with state := 1, size := 7, galley := 15, target := 1 } = false ∧
    Core.init.refusesOpen { Port.init with state := 1, size := 7, galley := 15, target := 511 * 512 + 448 } = true ∧
    ((prog (0x39 * 2 ^ 26 + 2 * 2 ^ 8) (fun x => { x with s := sregs [(2, 0xFFFF)] })).runs 0 0x39 (0x39 * 2 ^ 26 + 2 * 2 ^ 8) ∧
      wordAt (0xFFFF : Word) 31 16 = 0) ∧
    (prog (0x3A * 2 ^ 26) id).runs 0 0x3A (0x3A * 2 ^ 26) ∧ bits (0x3A * 2 ^ 26) 7 7 = 0 ∧
    (prog (0x3A * 2 ^ 26 + 128) id).runs 0 0x3A (0x3A * 2 ^ 26 + 128) ∧ bits (0x3A * 2 ^ 26 + 128) 7 7 = 1 := by
  refine ⟨fun st h => runs_of ?_, by decide, by decide, by decide +kernel, by decide +kernel, ⟨runs_of (by decide +kernel), by decide⟩,
    runs_of (by decide +kernel), by decide, runs_of (by decide +kernel), by decide⟩
  revert st; decide +kernel

/-- CHOPEN makes the port PENDING and puts one CONNECT into the core's own router (R204). -/
theorem test_chopen :
    let s := prog (0x38 * 2 ^ 26 + 2 * 2 ^ 18 + 1 * 2 ^ 13 + 2 * 2 ^ 8) (fun x => { x with s := sregs [(1, 1), (2, 5)] })
    let t := after (.chopen 0 Obs.quiet) s
    ((t.core 0).port 2).state = 1 ∧ (Map.get [] (t.router 0).inq 9).map (fun b => (b.msg.typ, b.msg.dest)) = [(3, 1)] := by decide +kernel

/-- Core 0 about to send `len` slots from v4 on port 0 with the status to s1; the block names port 0. -/
def sending (op len : Nat) (p : Port) : State :=
  prog (op * 2 ^ 26 + 4 * 2 ^ 13 + (len - 1) * 2 ^ 10 + 1) (fun x => { x with ports := [(0, p)], blocks := [(0, { Block.init with sends := 1 })] })

theorem witness_sends :
    (∀ op ∈ [0x3B, 0x3C], ∀ len ∈ [1, 2], (sending op len opened).runs 0 op (op * 2 ^ 26 + 4 * 2 ^ 13 + (len - 1) * 2 ^ 10 + 1)) ∧
    (∀ len ∈ [1, 2], ((sending 0x3B len opened).core 0).running.sends.testBit 0 = true ∧ opened.sent = false ∧ len ≤ opened.size + 1 ∧
      opened.state = 2 ∧ opened.kind = 0) ∧
    ({ opened with state := 3 } : Port).state ≠ 2 ∧ Block.init.sends.testBit 0 = false ∧ ({ opened with sent := true } : Port).sent = true ∧
    opened.size < bits (0x3B * 2 ^ 26 + 2 * 2 ^ 10) 12 10 ∧ 0x3FFC0 % 32 = 0 ∧ 0x3FFC0 + 32 * 2 ≤ 0x40000 := by
  refine ⟨fun op ho len hl => runs_of ?_, by decide +kernel⟩
  revert len; revert op; decide +kernel

/-- A send on an OPEN port is staged with status 0; one on a CLOSED port of a strict channel counts, and its status is 0x10 (R197). -/
theorem test_send :
    (let x := coreAfter (.sendv 0 Obs.quiet) (sending 0x3B 2 opened)
     x.rdS 1 = 0 ∧ (x.port 0).staged.map (fun m => (m.dest, m.galley, m.slots.length)) = some (1, 2, 2)) ∧
    (let x := coreAfter (.sendv 0 Obs.quiet) (sending 0x3B 2 { opened with state := 3 })
     x.rdS 1 = 0x10 ∧ (x.port 0).disc = 1 ∧ x.chan = 1) := by decide +kernel

/-- Core 0 about to run `w` with item `i` fixed at the head of galley 0. -/
def reading (w : Nat) (i : Item) : State := prog w (fun x => { x with heads := [(0, i)], s := sregs [(1, 0x3FFE0)] })

theorem witness_galleyReads :
    (∀ k < 4, (reading (0x3D * 2 ^ 26 + k * 2 ^ 7) (item 9)).runs 0 0x3D (0x3D * 2 ^ 26 + k * 2 ^ 7)) ∧
    (∀ k ∈ [0, 63], (reading (0x3E * 2 ^ 26 + k * 2 ^ 7) (item 9)).runs 0 0x3E (0x3E * 2 ^ 26 + k * 2 ^ 7)) ∧
    (reading (0x3F * 2 ^ 26 + 1 * 2 ^ 13) (item 9)).runs 0 0x3F (0x3F * 2 ^ 26 + 1 * 2 ^ 13) ∧ 0x3FFE0 % 32 = 0 ∧ 0x3FFE0 + 32 * 1 ≤ 0x40000 ∧
    ((reading 0 (item 9)).core 0).head 0 = some (item 9) ∧ ((reading 0 (item 9)).core 0).head 15 = none ∧
    ∀ sl ∈ (item 9).msg.slots, sl.lo = .clean ∧ sl.hi = .clean := by
  refine ⟨fun k h => runs_of ?_, fun k h => runs_of ?_, runs_of (by decide +kernel), by decide⟩
  · revert k; decide +kernel
  · revert k; decide +kernel

/-- GRDS reads a word of the head and zero beyond the item; GRDV of another galley stops with GALLEY_UNNAMED (R198). -/
theorem test_galley_reads :
    (coreAfter (.grds 0 Obs.quiet) (reading (0x3E * 2 ^ 26 + 2 * 2 ^ 17) (item 9))).rdS 2 = 9 ∧
    (coreAfter (.grds 0 Obs.quiet) (reading (0x3E * 2 ^ 26 + 2 * 2 ^ 17 + 63 * 2 ^ 7) (item 9))).rdS 2 = 0 ∧
    (coreAfter (.grdv 0 Obs.quiet) (reading (0x3D * 2 ^ 26 + 5 * 2 ^ 13) (item 9))).fault.toNat % 256 = 6 := by decide +kernel

/-! ### Blocks and steering -/

/-- A core that sleeps with block 63 enabled: it needs galley 0 and port 0. -/
def waiting : Core :=
  { Core.init with
    st := .sleep, en1 := 0x80000000, blocks := [(63, { Block.init with start := 100, inputs := 1, sends := 1, prio := 3, replay := true })]
    galleys := [(0, { plain with items := [item 9], wp := [(0, 1)] })], ports := [(0, opened)] }

theorem witness_firing :
    (∀ n < 64, (waiting.blockAt n).prio < 4) ∧ waiting.blockReady 63 = true ∧ waiting.chooseReady = some 63 ∧
    ({ plain with items := [item 9] } : Galley).front = some (item 9) ∧
    (withCore waiting).evaluates 0 = true ∧ ({ waiting with en1 := 0 } : Core).chooseReady = none ∧
    (withCore { waiting with en1 := 0, fails := 1 }).evaluates 0 = true := by decide +kernel

/-- Firing fixes the head and reserves two credits (R60); the second failed evaluation gates the clock (R66). -/
theorem test_firing :
    (let x := coreAfter (.readinessEvaluation 0 Obs.quiet) (withCore waiting)
     x.st = .run ∧ x.pc = 100 ∧ x.head 0 = some (item 9) ∧ (x.port 0).credit = 1 ∧ (x.port 0).reserved = 2 ∧ x.snap.isSome = true) ∧
    (coreAfter (.readinessEvaluation 0 Obs.quiet) (withCore { waiting with en1 := 0, fails := 1 })).gated = true := by decide +kernel

/-- A core at the end of a block with one head and one staged message. -/
def ending : Core :=
  { waiting with
    st := .run, block := 63, ended := true, heads := [(0, item 9)], banks := [0]
    ports := [(0, { opened with credit := 1, reserved := 2, sent := true, staged := some { datum 4 with dest := 1, galley := 2, sx := 0 } })] }

theorem witness_commit :
    (ending.st = .run ∧ ending.ended = true ∧ (withCore ending).executing 0 = true ∧ ending.closing = [] ∧ ending.commitTree = none ∧
      (∀ f, (withCore ending).formeOf 0 = some f → ((withCore ending).forme f).halting = false) ∧ (ending.heads.map (·.1)).Nodup ∧
      (∀ h ∈ ending.heads, h.2.msg.typ = 1 ∨ h.2.msg.typ = 2)) ∧
    (let x := { ending with firingQuoin := some 15, trees := 0x8000 }
     (withCore x).executing 0 = true ∧ (withCore x).formeOf 0 = some 0 ∧ ((withCore x).forme 0).halting = false ∧ x.commitTree = some 15 ∧
      ((withCore x).tree 0 15).external = false ∧ x.trees.testBit 15 = true) ∧
    ending.trees.testBit 15 = false := by
  have h : (withCore ending).formeOf 0 = some 0 := by decide +kernel
  refine ⟨⟨rfl, rfl, by decide +kernel, rfl, by decide +kernel, fun f hf => ?_, by decide +kernel, by decide +kernel⟩, by decide +kernel,
    by decide +kernel⟩
  rw [h] at hf; cases hf; decide +kernel

/-- A commit releases the item, gives back the credit that the message does not spend, and sends the message (R62); a member core waits
on its tree (R63). -/
theorem test_commit :
    (let t := after (.blockCommit 0 Obs.quiet) (withCore ending)
     (t.core 0).st = .sleep ∧ ((t.core 0).galley 0).items = [] ∧ ((t.core 0).port 0).credit = 2 ∧
       (Map.get [] (t.router 0).inq 8).map (fun b => b.msg.dest) = [1]) ∧
    (let t := after (.blockCommit 0 Obs.quiet) (withCore { ending with firingQuoin := some 3, trees := 8 })
     (t.core 0).st = .quoin ∧ (t.tree 0 3).arrived = [0]) := by decide +kernel

/-- A snapshot of an empty core. -/
def snapshot : Snapshot :=
  { s := [], p := [], v := [], acc := [], rng := 1, h0 := HalfCtl.init, h1 := HalfCtl.init }

theorem witness_reexecution :
    (ending.st = .run ∧ ending.ended = true ∧ (withCore ending).executing 0 = true ∧ ending.banks ≠ []) ∧
    ({ ending with snap := some snapshot } : Core).mayReplay = true ∧ ending.mayReplay = false ∧ ending.pc < 4096 ∧ ending.block < 64 ∧
    ({ ending with st := .replay, snap := some snapshot } : Core).st = .replay ∧
    (withCore { ending with st := .replay, snap := some snapshot }).executing 0 = true := by decide +kernel

/-- A residue mismatch of a block that may be executed again sends it back (R98); one without REPLAY stops the core with RESIDUE (R100). -/
theorem test_residue :
    (coreAfter (.blockCommit 0 { Obs.quiet with residue := true }) (withCore { ending with snap := some snapshot })).st = .replay ∧
    (coreAfter (.blockCommit 0 { Obs.quiet with residue := true }) (withCore ending)).fault.toNat % 256 = 0x0C ∧
    (coreAfter (.replayBlock 0) (withCore { ending with st := .replay, snap := some snapshot })).pc = 100 := by decide +kernel

/-- A token item whose first codeword is as given. -/
def token (w : Nat) (lo : Cw) : Item := { msg := { datum w with slots := [{ data := BitVec.ofNat 256 w, lo := lo, hi := .clean }] }, pos := 0 }

/-- Steering unit 3 of core 0: control galley 0, data galley 1, outputs 0 and 1; it holds the token when its run goes on. -/
def steering (run : Nat) (p : Port) (ctl data : List Item) : State :=
  withCore { Core.init with
    st := .sleep, ports := [(0, p)], galleys := [(0, { plain with items := ctl }), (1, { plain with items := data })]
    steers := [(3, { cfg := 0x10101, run := run, sel := 0, tok := if run = 0 then none else some (0, token 0 .clean) })] }

theorem witness_steering :
    (∀ run ∈ [0, 1, 2], let s := steering run opened [token 0 .clean] [item 9]
      s.executing 0 = true ∧ ((s.core 0).steer 3).en = true ∧ (s.core 0).steerShared ((s.core 0).steer 3) = false ∧ s.NoPending) ∧
    ({ (steering 2 opened [] []).core 0 with st := .run, blocks := [(0, { Block.init with inputs := 2 })] } : Core).steerShared
      ((steering 2 opened [] []).core 0 |>.steer 3) = true ∧
    (∀ lo ∈ [Cw.clean, .poison], (((steering 0 opened [token 0x1FFFF lo] []).core 0).galley 0).items.head? = some (token 0x1FFFF lo) ∧
      (token 0x1FFFF lo).msg.slots.head?.map (·.lo) = some lo) ∧ bits 0x1FFFF 31 17 = 0 ∧ bits 0x20000 31 17 ≠ 0 ∧
    (((steering 2 opened [] [item 9]).core 0).galley 1).items.head? = some (item 9) ∧ (item 9).msg.typ = 1 ∧
    (item 9).msg.slots.length ≤ opened.credit ∧ opened.kind = 0 ∧ ({ opened with credit := 0 } : Port).credit < (item 9).msg.slots.length := by
  decide +kernel

/-- A token with a nonzero reserved field stops the core with STEER_TOKEN and the unit's number (R89). -/
theorem test_steering :
    (let x := coreAfter (.steerForward 0 3 Obs.quiet) (steering 0 opened [token 0x20000 .clean] [])
     x.fault.toNat % 256 = 9 ∧ x.faultInfo = 3) ∧
    (let x := coreAfter (.steerForward 0 3 Obs.quiet) (steering 0 opened [token 0x20000 .clean, token 1 .clean] [])
     x.st = .stopped ∧ (x.galley 0).items.length = 2) ∧
    (let t := after (.steerForward 0 3 Obs.quiet) (steering 2 opened [token 0 .clean] [item 9])
     ((t.core 0).port 0).credit = 2 ∧ ((t.core 0).steer 3).run = 1 ∧ ((t.core 0).galley 1).items = []) ∧
    (let x := coreAfter (.steerForward 0 3 Obs.quiet) (steering 1 { opened with state := 3 } [token 0 .clean, { token 1 .clean with pos := 1 }] [item 9])
     x.chan = 1 ∧ (x.steer 3).run = 0 ∧ (x.galley 0).items.length = 1) := by decide +kernel

/-! ### The fabric -/

/-- The ready module with messages at input `i` of core 2's router on virtual channel 0. -/
def routing (i : Nat) (b : List RBuf) : State := { ready with routers := [(2, { Router.init with inq := [(i * 2, b)] })] }

/-- A message that has not been routed, for a destination. -/
def bound (dest : Nat) : RBuf := { msg := { datum 4 with dest := dest }, routed := false, outs := 0 }

theorem witness_routing :
    (routing 3 [bound 3]).routes 2 = true ∧ Map.get [] ((routing 3 [bound 3]).router 2).inq (3 * 2 + 0) = [bound 3] ∧
    Map.get [] ((routing 3 [bound 3]).router 2).wait (3 * 2 + 0) = [] ∧ (routing 3 [bound 3]).formeOf 2 = some (bound 3).msg.forme ∧
    (routing 3 [bound 3]).NoPending ∧ ((routing 3 [bound 3]).router 2).injectEntry (bound 3).msg.sport = none ∧
    (bound 3).msg.reserved = false ∧ (bound 3).msg.hops < 1022 ∧ ({ datum 4 with hops := 1022 } : Msg).hops ≥ 1022 ∧ (bound 3).msg.wp = none ∧
    (bound 3).msg.dkind = 0 ∧ (bound 3).msg.typ ≠ MT.group ∧ ((routing 3 [bound 3]).router 2).reduceEntry (bound 3).msg = none ∧
    (∀ w ∈ codewords (bound 3).msg.slots, w = .clean ∨ w = .poison) := by decide +kernel

/-- Core 1 belongs to cluster 0 of forme 0: a message for core (0, 1), which is core 512, leaves (1, 0) to the west, one for core 0 of a
forme whose core 0 is absent is absorbed, and one of another forme is dropped as it enters the cluster. -/
def routing1 (i : Nat) (b : RBuf) (s : State) : State := { s with routers := [(1, { Router.init with inq := [(i * 2, [b])] })] }

theorem witness_routing_ways :
    (routing1 2 (bound 512) ready).formeOf 1 = some 0 ∧ (bound 512).msg.dest ≠ 1 ∧ ready.blockedDir 0 1 3 = false ∧
    ({ ready with formes := [(0, { Forme.init with state := 3, viewFields := 0 })] } : State).blockedDir 0 1 3 = true ∧
    ready.entersCluster 1 0 = true ∧ ready.formeOf 1 ≠ some 7 ∧ ready.entersCluster 1 2 = false ∧
    ({ datum 4 with len := 9 } : Msg).reserved = true := by decide +kernel

theorem test_route :
    (Map.get [] ((after (.route 1 2 0 LinkObs.quiet) (routing1 2 (bound 512) ready)).router 1).inq 4).map (·.outs) = [2 ^ 3] ∧
    (Map.get [] ((after (.route 1 2 0 LinkObs.quiet) (routing1 2 (bound 1) ready)).router 1).inq 4).map (·.outs) = [16] ∧
    ((after (.route 1 0 0 LinkObs.quiet) (routing1 0 { bound 1 with msg := { datum 4 with forme := 7 } } ready)).router 1).chaseDrop = 1 ∧
    ((after (.route 1 2 0 LinkObs.quiet) (routing1 2 { bound 512 with msg := { datum 4 with hops := 1022 } } ready)).router 1).hopDrop = 1 := by
  decide +kernel

/-- A message routed at input 2 of core 1 for an output. -/
def routed (d : Nat) : State := routing1 2 { bound 512 with routed := true, outs := 2 ^ d } ready

/-- A message held for reduce entry 0, whose inputs are N and S, of which N has arrived. -/
def holding (arrived : Nat) : State :=
  { ready with routers := [(1, { Router.init with
      held := [{ entry := 0, msg := { datum 4 with dest := 0 }, arrived := arrived }], reduce := [BitVec.ofNat 64 (5 * 2 ^ 38)] })] }

theorem witness_routerOutputs :
    (routed 3).routes 1 = true ∧ (routed 3).outputPick 1 3 0 = some (2, { bound 512 with routed := true, outs := 8 }) ∧
    (routed 3).blockedDir 0 1 3 = false ∧ (routed 3).outputRoom 1 3 0 (bound 512).msg = true ∧ (routed 3).canSend 1 3 1 = false ∧
    (routed 3).neighbour 1 3 = some 0 ∧ (routed 4).outputPick 1 4 0 = some (2, { bound 512 with routed := true, outs := 16 }) ∧
    Map.get [] ((routed 4).router 1).ejq 0 = [] ∧ (routed 5).outputPick 1 5 0 = some (2, { bound 512 with routed := true, outs := 32 }) ∧
    (routed 0).blockedDir 0 1 0 = true ∧ (routed 0).outputPick 1 0 0 = some (2, { bound 512 with routed := true, outs := 1 }) ∧
    ((routed 3).cutOff 0 1 3 = false ∧ ({ routed 3 with routers := (routed 3).routers ++ [(512, Router.init)] } : State).outputRoom 1 4 0 (bound 1).msg
      = true) ∧
    ({ routed 4 with routers := [(1, { Router.init with inq := [(4, [{ bound 1 with routed := true, outs := 16 }])], ejq := [(0, [datum 1])] })] }
      : State).outputRoom 1 4 0 (bound 1).msg = false ∧
    ((holding 1).router 1).held.find? (fun h => h.entry == 0) = some { entry := 0, msg := { datum 4 with dest := 0 }, arrived := 1 } ∧
    ((holding 1).router 1).reduce[0]? = some (BitVec.ofNat 64 (5 * 2 ^ 38)) ∧ (holding 1).target { datum 4 with dest := 0 } = some 0 ∧
    (holding 1).blockedDir 0 1 (xyDirection 0 1) = false ∧ (5 : Nat) &&& bits (5 * 2 ^ 38) 42 38 = bits (5 * 2 ^ 38) 42 38 ∧
    (1 : Nat) &&& bits (5 * 2 ^ 38) 42 38 ≠ bits (5 * 2 ^ 38) 42 38 := by decide +kernel

/-- The west output of core 1 reaches the east input of core 0; a merge buffer waits for both of its inputs (R264). -/
theorem test_router_outputs :
    (Map.get [] ((after (.routerForward 1 3 0) (routed 3)).router 0).inq 2).length = 1 ∧
    (Map.get [] ((after (.routerForward 1 4 0) (routed 4)).router 1).ejq 0).length = 1 ∧
    ((after (.routerForward 1 0 0) (routed 0)).router 1).absorbed = 1 ∧
    ((after (.reduceForward 1 0 false) (holding 1)).router 1).held.length = 1 ∧
    (Map.get [] ((after (.reduceForward 1 0 false) (holding 5)).router 1).inq 10).map (·.outs) = [8] := by decide +kernel

/-- A combining galley of FP32 items of one slot that expects two contributions, with one that waits to be added. -/
def combining (es : List Entry) : Galley :=
  { Galley.init with cfg := BitVec.ofNat 32 (2 + 2 ^ 19), geo := 0, contribs := [item 0x3F800000], entries := es }

/-- Core 0 with that galley. -/
def adding (es : List Entry) : State := withCore { Core.init with st := .sleep, galleys := [(0, combining es)] }

/-- An entry of key 7 with one contribution, 2.0. -/
def entry2 : Entry := { key := 7, total := 1, slots := (datum 0x40000000).slots, pos := 1, owner := datum 0x40000000 }

/-- A core that a full spill galley blocks: galley 0 extends into the store, and its block waits for galley 1. -/
def blockedBySpill : Core :=
  { Core.init with
    st := .sleep, en0 := 1, blocks := [(0, { Block.init with inputs := 3 })]
    galleys := [(0, { plain with cfg := 9, chans := [⟨1, 0, 0, 1, false, 0, 1⟩], items := [item 9], wp := [(0, 8)] })] }

theorem witness_combining :
    (adding []).routes 0 = true ∧ (combining []).contribs = [item 0x3F800000] ∧ (∀ w ∈ codewords (datum 0x3F800000).slots, w = .clean ∨ w = .poison) ∧
    (combining []).entries.find? (fun e => e.key == 7) = none ∧ (datum 0x3F800000).count < (combining []).expect ∧
    (combining [entry2]).entries.find? (fun e => e.key == (datum 0x3F800000).tag) = some entry2 ∧ (datum 0x3F800000).sy < 448 ∧
    entry2.total + (datum 0x3F800000).count = (combining []).expect ∧ ({ entry2 with total := 0 } : Entry).total + 1 < (combining []).expect ∧
    (withCore blockedBySpill).executing 0 = true ∧ blockedBySpill.spillGrantDue 0 1 = true ∧ blockedBySpill.spillGrantDue 0 9 = false := by
  decide +kernel

/-- 2.0 and 1.0 make one item of 3.0 (R220, R222); the grant of a spill extension is owed (R226). -/
theorem test_combining :
    ((coreAfter (.combiningAdd 0 0 Obs.quiet) (adding [entry2])).galley 0).items.map (fun i => i.msg.slots.map (fun s => s.data.toNat))
      = [[0x40400000]] ∧
    ((coreAfter (.spillCreditGrant 0 0) (withCore blockedBySpill)).galley 0).debt = 1 ∧
    (Slot.add 0xB { zeroSlot with data := 0xFFFFFFFF } { zeroSlot with data := 2, lo := .poison }).data = 1 ∧
    (Slot.add 0xB { zeroSlot with data := 0xFFFFFFFF } { zeroSlot with data := 2, lo := .poison }).lo = .poison := by decide +kernel

/-! ### Galleys and connections -/

/-- Core 0 with galley 0 as given and a message at its local port. -/
def arriving (v : Nat) (g : Galley) (m : Msg) : State :=
  let x : Core := { Core.init with
    st := .sleep, rank := 5, gated := true, galleys := [(0, g)], ports := [(0, { Port.init with state := 1, target := 1 })] }
  { withCore x with routers := [(0, { Router.init with ejq := [(v, [m])] })] }

/-- A plain galley of eight slots whose spill extension holds eight, from address 0x1000 on. -/
def spilling : Galley := { plain with cfg := 9, geo := 0, spl := 0x80 }

/-- Core 0 with a message of that galley in its core store, whose word is 9. -/
def spilled : State :=
  let s := arriving 0 { spilling with ext := [item 0] } (datum 9)
  { s with cores := [(0, { s.core 0 with store := [(0x1000, 9)] })] }

theorem witness_galleyArrivals :
    (arriving 0 plain (datum 9)).routes 0 = true ∧ (arriving 0 plain (datum 9)).ejHead 0 0 = some (datum 9) ∧ galleyType (datum 9).typ = true ∧
    plain.mode = 1 ∧ plain.turnsAway (datum 9) = false ∧ plain.hasSpill = false ∧ 0 < plain.size 0 ∧ (datum 9).slots.length ≤ plain.freeSlots 0 ∧
    ({ plain with wp := [(0, plain.size 0)] } : Galley).freeSlots 0 < (datum 9).slots.length ∧ spilling.hasSpill = true ∧
    ({ spilling with wp := [(0, spilling.size 0)] } : Galley).freeSlots 0 < (datum 9).slots.length ∧
    spilling.occ + (datum 9).slots.length ≤ spilling.spillSize ∧ Galley.init.turnsAway (datum 9) = true ∧
    ({ spilling with ext := [item 9] } : Galley).ext ≠ [] ∧ (datum 9).slots.length ≤ ({ spilling with ext := [item 9] } : Galley).freeSlots 0 ∧
    (∀ k < 2, ((spilled.core 0).cwNow (spilling.spillCw 0 + k)).2 = .clean) ∧ spilled.routes 0 = true := by decide +kernel

/-- An arrival becomes an item and wakes the core (R67, R212); a full galley with a spill extension takes it there (R227). -/
theorem test_galley_write :
    (let x := coreAfter (.galleyWrite 0 0) (arriving 0 plain (datum 9))
     (x.galley 0).items = [item 9] ∧ x.gated = false ∧ Map.get 0 (x.galley 0).wp 0 = 1) ∧
    (let x := coreAfter (.galleyWrite 0 0) (arriving 0 { spilling with wp := [(0, spilling.size 0)] } (datum 9))
     (x.galley 0).ext.length = 1 ∧ x.store.read 0x1000 = 9) ∧
    ((coreAfter (.spillRefill 0 0) spilled).galley 0).items.map (fun i => i.msg.slots.map (·.data.toNat)) = [[9]] ∧
    ((after (.galleyWrite 0 0) (arriving 0 Galley.init (datum 9))).router 0).absorbed = 1 := by decide +kernel

/-- A CONNECT from core 1's port 2 on virtual channel 0: rank, key, class and size. -/
def connect (rank key cls size : Nat) : Msg :=
  connMsg MT.connect 0 1 0 0 (le (1 + 2 * 2 ^ 18) 4 ++ le rank 2 ++ le key 2 ++ le (16 * cls) 1 ++ le (size - 1) 1)

/-- The answer that core 0 sends to a CONNECT: its type and its second byte. -/
def answerTo (g : Galley) (m : Msg) : List (Nat × Nat) :=
  (Map.get [] ((after (.connectMsg { kind := 1, n := 0 }) (arriving 1 g m)).router 0).inq 9).map (fun b => (b.msg.typ, bytesAt b.msg.body 1 1))

theorem witness_connections :
    (∀ m ∈ [connect 4 5 0 1, connect 4 6 0 1, connect 5 5 0 1, connect 4 5 1 1, connect 4 5 0 8], m.typ = MT.connect ∧ m.connOk = true ∧
      (arriving 1 plain m).routes 0 = true ∧ (arriving 1 plain m).ejHead 0 1 = some m) ∧
    plain.listening = true ∧ (connect 4 5 0 1).cnKey = plain.key ∧ (connect 4 6 0 1).cnKey ≠ plain.key ∧ (connect 4 5 0 1).cnRank < 5 ∧
    ¬ (connect 5 5 0 1).cnRank < 5 ∧ (connect 4 5 0 1).cnCls < plain.classes ∧ ¬ (connect 4 5 1 1).cnCls < plain.classes ∧
    (connect 4 5 0 1).cnSize ≤ plain.grant 0 ∧ plain.chans.length < plain.maxch ∧
    ({ plain with chans := [⟨1, 0, 0, 1, false, 0, 8⟩] } : Galley).chans.length = plain.maxch ∧
    (∀ m ∈ [connMsg MT.accept 0 1 0 0 (le 0 2 ++ le 4 2), connMsg MT.refuse 0 1 0 0 (le 0 1 ++ le 6 1), connMsg MT.close 0 1 0 0 (le 16 1),
      connMsg MT.credit 0 1 0 0 (le 0 2 ++ le 4 2), connMsg MT.close 0 1 0 0 (le 0 1)], m.connOk = true ∧ m.src = 1 ∧ m.sy < 448 ∧
      bytesAt m.body 0 1 % 16 = 0) := by decide +kernel

/-- R204's checks in their order, and the acceptance. -/
theorem test_connect :
    answerTo Galley.init (connect 4 5 0 1) = [(MT.refuse, 1)] ∧ answerTo plain (connect 4 6 0 1) = [(MT.refuse, 2)] ∧
    answerTo plain (connect 5 5 0 1) = [(MT.refuse, 3)] ∧ answerTo plain (connect 4 5 1 1) = [(MT.refuse, 4)] ∧
    answerTo { plain with chans := [⟨1, 0, 0, 1, false, 0, 8⟩] } (connect 4 5 0 1) = [(MT.refuse, 5)] ∧
    answerTo { plain with cfg := 0x101 } (connect 4 5 0 8) = [(MT.refuse, 6)] ∧ answerTo plain (connect 4 5 0 1) = [(MT.accept, 0)] := by
  decide +kernel

/-- ACCEPT opens a PENDING port with its grant; REFUSE returns it to IDLE with the reason (R205). -/
theorem test_accept_refuse :
    (let p := (coreAfter (.acceptMsg 0) (arriving 1 plain (connMsg MT.accept 0 1 0 0 (le 0 2 ++ le 4 2)))).port 0
     p.state = 2 ∧ p.credit = 4) ∧
    (let x := coreAfter (.refuseMsg 0) (arriving 1 plain (connMsg MT.refuse 0 1 0 0 (le 0 1 ++ le 6 1)))
     (x.port 0).state = 0 ∧ (x.port 0).reason = 6 ∧ x.chan = 0x10000) := by decide +kernel

/-! ### Quoin and containment -/

/-- The module with forme 0 as a function gives it. -/
def formed (f : Forme → Forme) : State := { ready with formes := [(0, f (ready.forme 0))] }

/-- Core 0 of that module in QUOIN wait on tree 0, where it has arrived; the forme as given. -/
def atQuoin (f : Forme → Forme) : State :=
  { formed (fun x => f { x with trees := [(0, { Tree.init with isOr := true, arrived := [0] })] }) with
    cores := [(0, { Core.init with st := .quoin, tree := 0 })] }

theorem witness_quoinRelease :
    ((atQuoin id).forme 0).state = 3 ∧ ((atQuoin id).tree 0 0).external = false ∧ (atQuoin id).treeMet 0 0 = true ∧
    ((atQuoin id).forme 0).layer ≠ some 0 ∧ ((atQuoin id).forme 0).halt ≠ some 0 ∧ ready.treeMet 0 0 = false ∧
    (ready.tree 0 0).external = false ∧
    ((atQuoin (fun x => { x with halt := some 0 })).forme 0).halt = some 0 ∧
    (atQuoin (fun x => { x with halt := some 0 })).treeMet 0 0 = true ∧ (atQuoin (fun x => { x with halt := some 0 })).anyRunning 0 = false := by
  decide +kernel

/-- The release of an OR tree wakes the first core that arrived (R271). -/
theorem test_quoin_release : (coreAfter (.quoinRelease 0 0) (atQuoin id)).st = .sleep ∧
    ((after (.quoinRelease 0 0) (atQuoin id)).tree 0 0).releases = 1 ∧ ((after (.quoinRelease 0 0) (atQuoin id)).tree 0 0).arrived = [] := by
  decide +kernel

theorem witness_formeFaults :
    (ready.forme 0).state = 3 ∧ (((withCore { Core.init with st := .quoin }).forme 0).clusters.filter
      ((withCore { Core.init with st := .quoin }).clusterPresentIn 0)).all ((withCore { Core.init with st := .quoin }).votes 0) = true ∧
    ((ready.forme 0).clusters.filter (ready.clusterPresentIn 0)).all (ready.votes 0) = false ∧
    (withCore { Core.init with st := .run }).impatient 0 = true ∧ ready.impatient 0 = false ∧
    ready.canDie 0 = true ∧ ready.formeOf 0 = some 0 ∧ ({ ready with clusters := [] } : State).canDie 0 = true ∧
    ({ ready with clusters := [] } : State).formeOf 0 = none := by decide +kernel

/-- DEADLOCK, PATIENCE_EXPIRY and CORE_LOST name their classes (R280, R301, R305). -/
theorem test_forme_faults :
    (let f := (after (.deadlock 0) (withCore { Core.init with st := .quoin })).forme 0
     f.state = 5 ∧ f.status = 0x0B ∧ f.faultClass = 0x0C) ∧
    (let f := (after (.patienceExpiry 0) (withCore { Core.init with st := .run })).forme 0
     f.state = 5 ∧ f.status = 0x0A ∧ f.faultClass = 0x0D) ∧
    (let s := after (.coreLost 0 false) ready
     (s.forme 0).faultClass = 0x0B ∧ s.hellbox.length = 1 ∧ s.died 0 = true ∧ s.canDie 0 = false) := by decide +kernel

/-! ### Rings -/

/-- A byte of sparse fields, each an offset, a size and a value. -/
def sparse (l : List (Nat × Nat × Nat)) (i : Nat) : Byte := match l.find? (fun f => decide (f.1 ≤ i ∧ i < f.1 + f.2.1)) with
  | some f => BitVec.ofNat 8 (f.2.2 / 256 ^ (i - f.1))
  | none => 0

/-- An entry of 64 bytes: its opcode, its flags and its fields, each an offset, a size and a value. -/
def entryOf (op flags : Nat) (l : List (Nat × Nat × Nat)) : Bytes :=
  (List.range 64).map (sparse ((0, 2, op) :: (2, 1, flags) :: (4, 4, 0x55) :: l))

/-- An ACTIVE ring with lines and memories of its own. -/
def active : Ring :=
  { Ring.init with sbase := 0x10000, cbase := 0x20000, dbline := 0x40000, cline := 0x30000, cfg := 1, state := 1 }

/-- Ring `r` of a state ACTIVE with one entry that it has fetched. -/
def given (s : State) (r : Nat) (b : Bytes) : State :=
  { s with rings := [(r, { active with entries := [(0, b)], fetched := 1, tail := 1 })] }

/-- The command that an entry at index 0 gives. -/
def cmdOf (b : Bytes) : Cmd := Cmd.ofEntry 0 b []

/-- The check of `State.starts` as a test. -/
def startsNow (s : State) (r op : Nat) (c : Cmd) : Bool := match s.startable r with
  | some e => decide (c = s.headCmd r e) && decide (c.opcode = op) && !(s.ring r).depFails e.2 && decide (s.refusedAtStart r c = none)
  | none => false

theorem starts_of {s : State} {r op : Nat} {c : Cmd} (h : startsNow s r op c = true) : s.starts r op c := by
  unfold startsNow at h
  split at h
  · rename_i e he
    simp only [Bool.and_eq_true, decide_eq_true_eq, Bool.not_eq_true'] at h
    exact ⟨e, he, h.1.1.1, h.1.1.2, h.1.2, h.2⟩
  · exact absurd h (by decide)

/-- For each row: its ring, a state of forme 0 in which it starts, and its operands. -/
def rowEntries : List (Nat × Nat × Nat × List (Nat × Nat × Nat)) :=
  [(0x0001, 64, 0, []), (0x0002, 64, 1, []), (0x0003, 64, 0, []), (0x0004, 64, 1, []), (0x0005, 64, 1, []), (0x0006, 64, 1, []),
   (0x0007, 64, 1, []), (0x0008, 64, 1, []), (0x0009, 64, 1, [(20, 2, 7)]), (0x000A, 64, 1, []), (0x000B, 64, 0, [(16, 2, 1)]),
   (0x000C, 64, 0, []), (0x000D, 64, 0, []), (0x000E, 64, 0, []), (0x1000, 0, 0, []), (0x1001, 0, 1, []), (0x1002, 0, 1, []),
   (0x1003, 0, 1, []), (0x1004, 0, 3, []), (0x1005, 0, 2, []), (0x1006, 0, 3, []), (0x1007, 0, 3, [(25, 1, 1)]), (0x1008, 0, 1, []),
   (0x1009, 0, 1, []), (0x100A, 0, 1, []), (0x100B, 0, 1, []), (0x100C, 0, 0, []), (0x100D, 0, 0, [])]

/-- The module with forme 0 in a state and one entry on a ring. -/
def asked (st r op : Nat) (l : List (Nat × Nat × Nat)) : State := given (formed (fun x => { x with state := st })) r (entryOf op 0 l)

/-- Every row of the rings starts somewhere; statements about a row's command without further hypotheses are met there. -/
theorem witness_rows_start : ringRows.map (·.1) = (rowEntries.filter (·.1 ≠ 9)).map (·.1) ∧
    ∀ p ∈ rowEntries, (asked p.2.2.1 p.2.1 p.1 p.2.2.2).starts p.2.1 p.1 (cmdOf (entryOf p.1 0 p.2.2.2)) := by
  refine ⟨by decide, fun p h => starts_of ?_⟩
  have : rowEntries.all (fun p => startsNow (asked p.2.2.1 p.2.1 p.1 p.2.2.2) p.2.1 p.1 (cmdOf (entryOf p.1 0 p.2.2.2))) = true := by
    decide +kernel
  exact List.all_eq_true.mp this p h

/-- A NOP with DEP whose entry before it failed, on forme ring 0. -/
def depends : State := { ready with rings := [(0, { active with
  entries := [(1, entryOf 0x1000 1 [])], fetched := 2, tail := 2, lastSq := some 0, lastStatus := some 6 })] }

theorem witness_ringStart :
    ready.startable 0 = none ∧ depends.startable 0 = some (1, entryOf 0x1000 1 []) ∧ (depends.ring 0).depFails (entryOf 0x1000 1 []) = true ∧
    (asked 1 0 0x7777 []).startable 0 = some (0, entryOf 0x7777 0 []) ∧ isOpcode (cmdOf (entryOf 0x7777 0 [])).opcode = false ∧
    isOpcode 0x100E = false ∧ isOpcode 0x000F = false ∧ isOpcode 0 = false ∧ isOpcode 0x0FFF = false ∧
    badEncoding 0 0x0001 (entryOf 0x0001 0 []) = some 0 ∧ badEncoding 64 0x0001 (entryOf 0x0001 0 [(40, 1, 1)]) = some 40 ∧
    badEncoding 0 0x1000 (entryOf 0x1000 0 []) = none ∧ State.reset.deviceAdmits 0x1000 = false ∧ ready.deviceAdmits 0x1001 = true ∧
    ready.judgedBy 0 (cmdOf (entryOf 0x1001 0 [])) = some 0 ∧ ready.formeAdmits 0 0 (cmdOf (entryOf 0x1001 0 [])) = false ∧
    ready.formeAdmits 0 0 (cmdOf (entryOf 0x1002 0 [])) = true := by decide +kernel

/-- The status of the completion entry that stands at the ring's first completion slot. -/
def status (s : State) : Nat := s.hostNat 0x2000A 1

/-- A failed DEP is SKIPPED, an unknown opcode and a bad field are BADARG, and a command in a wrong forme state is BADSTATE (R420-R423). -/
theorem test_ring_start :
    status (after (.nopCommand 0) depends) = 5 ∧ status (after (.nopCommand 0) (asked 1 0 0x7777 [])) = 3 ∧
    (let s := after (.run 0) (asked 2 0 0x1005 [(16, 1, 9)])
     status s = 3 ∧ s.hostNat 0x2000C 4 = 16) ∧
    status (after (.run 0) (asked 3 0 0x1005 [])) = 2 ∧ after (.run 0) (asked 2 0 0x1000 []) = asked 2 0 0x1000 [] := by decide +kernel

theorem witness_smallCommands :
    (∀ fl ∈ [0, 4], (given ready 0 (entryOf 0x1000 fl [])).starts 0 0x1000 (cmdOf (entryOf 0x1000 fl []))) ∧
    (given ready 0 (entryOf 0x1000 0 [])).ringLink 0 = true ∧ (given ready 0 (entryOf 0x1000 0 [])).noFence ∧
    ((given ready 0 (entryOf 0x1000 0 [])).ring 0).cbase + 32 ≤ ((given ready 0 (entryOf 0x1000 0 [])).ring 0).cline ∧
    (cmdOf (entryOf 0x1000 0 [])).flags.testBit 2 = false ∧ (cmdOf (entryOf 0x1000 4 [])).flags.testBit 2 = true ∧
    (given ready 0 (entryOf 0x100C 0 [])).starts 0 0x100C (cmdOf (entryOf 0x100C 0 [])) ∧
    (given ready 0 (entryOf 0x100C 0 [])).fenceMet (cmdOf (entryOf 0x100C 0 [])) = true ∧
    ({ given ready 0 [] with rings := [(0, { active with cmds := [{ cmdOf (entryOf 0x1005 0 []) with sq := 0 }] })] } : State).fenceMet
      { cmdOf (entryOf 0x100C 0 []) with sq := 1, waits := [(0, 1)] } = false ∧
    ready.mgmt.started = true := by
  refine ⟨fun fl h => ?_, ?_, ?_, ?_, ?_, ?_, starts_of ?_, ?_, ?_, ?_⟩
  · apply starts_of
    revert fl
    decide +kernel
  rotate_left
  · unfold State.noFence
    decide +kernel
  all_goals decide +kernel

/-- A NOP's completion entry and consumer line (R425, R427, R429). -/
theorem test_nop_command : let s := after (.nopCommand 0) (given ready 0 (entryOf 0x1000 0 []))
    s.hostNat 0x20000 4 = 0x55 ∧ s.hostNat 0x20008 2 = 0x1000 ∧ status s = 0 ∧ s.hostNat 0x2000B 1 = 1 ∧ s.hostNat 0x30000 4 = 1 ∧
    s.hostNat 0x30004 4 = 1 ∧ s.hostNat 0x30008 4 = 0 ∧ (s.ring 0).entries = [] := by decide +kernel

/-- A MARK's record carries its value (R443). -/
theorem test_mark : ((after (.mark 0) (given ready 0 (entryOf 0x100D 0 [(16, 8, 0x1122334455)]))).mgmt.held.map
    (fun b => (bytesAt b.bytes 4 1, bytesAt b.bytes 32 8))) = [(2, 0x1122334455)] := by decide +kernel

/-- A memory of bytes from an address. -/
def memOf (a : Nat) : Bytes → Mem
  | [] => []
  | b :: t => (a, b) :: memOf (a + 1) t

/-- The host's stores of two indices to the line at `a`. -/
def indices (a tail head : Nat) : List HostStore := [⟨a, le tail 4 ++ le head 4, false⟩]

/-- Ring `r` ACTIVE and empty, before a host whose submission memory holds NOPs. -/
def idle (r : Nat) : State := { ready with rings := [(r, active)], hostMem := memOf 0x10000 (entryOf 0x1000 0 [] ++ entryOf 0x100D 0 []) }

/-- The module with a record to write on ring `r`. -/
def withRecords (r : Nat) : State := { idle r with
  mgmt := { ready.mgmt with evHold := [zeros 64] }, reports := [{ forme := 0, core := 0, port := 0, tag := 3, slots := [], reply := none, bay := 0 }]
  recorder := { queue := [zeros 64], fingers := [] } }

theorem witness_ringTraffic :
    (∀ r ∈ [0, 71], let s := (idle r).hostStores (indices 0x40000 2 0)
      (s.ring r).state = 1 ∧ s.ringLink r = true ∧ (s.ring r).fetched < 2 ^ 32 ∧ ahead (s.hostNat 0x40000 4) (s.ring r).fetched ≤ (s.ring r).size ∧
      ahead (s.ring r).produced (s.hostNat 0x40004 4) ≤ (s.ring r).csize) ∧
    (∀ n ∈ [(17, 0), (0, 1)], let s := (idle 0).hostStores (indices 0x40000 n.1 n.2)
      ¬ (ahead (s.hostNat 0x40000 4) (s.ring 0).fetched ≤ (s.ring 0).size ∧
        ahead (s.ring 0).produced (s.hostNat 0x40004 4) ≤ (s.ring 0).csize)) ∧
    (∀ r ∈ [72, 74], let s := (idle r).hostStores (indices 0x40000 0 0)
      (s.ring r).state = 1 ∧ s.ringLink r = true ∧ ahead (s.ring r).produced (s.hostNat 0x40000 4) ≤ (s.ring r).size) ∧
    (∀ r ∈ [72, 73, 74], ((withRecords r).ring r).state = 1 ∧ (withRecords r).ringLink r = true ∧ 0 < ((withRecords r).ring r).space ∧
      (withRecords r).mgmt.evHold = zeros 64 :: [] ∧ ((withRecords r).ring r).furniture 2 = some 0) ∧
    ({ active with produced := 15 } : Ring).furniture 2 = none ∧ ({ active with produced := 15, consumed := 15 } : Ring).furniture 2 = some 1 := by
  decide +kernel

/-- A doorbell fetches both entries; a tail too far ahead is BADARG (R415-R417). -/
theorem test_doorbell :
    (let g := (after (.doorbellSnoop 0 (indices 0x40000 2 0)) (idle 0)).ring 0
     g.entries.map (fun e => (e.1, bytesAt e.2 0 2)) = [(0, 0x1000), (1, 0x100D)] ∧ g.fetched = 2) ∧
    ((after (.doorbellSnoop 0 (indices 0x40000 17 0)) (idle 0)).ring 0).err = 3 ∧
    ((after (.consumerLineSnoop 72 (indices 0x40000 1 0)) (idle 72)).ring 72).err = 3 := by decide +kernel

/-- Records go to their rings (R451, R452, R546). -/
theorem test_records :
    ((after .eventRecordWrite (withRecords 72)).ring 72).produced = 1 ∧ (after .eventRecordWrite (withRecords 72)).mgmt.evHold = [] ∧
    ((after .reportRecordWrite (withRecords 73)).ring 73).produced = 1 ∧ (after .reportRecordWrite (withRecords 73)).hostNat 0x10008 2 = 3 ∧
    ((after .proofRecordWrite (withRecords 74)).ring 74).produced = 2 := by decide +kernel

/-! ### Formes -/

/-- The module with no forme and one OPEN_FORME of the rectangle of cluster (0, 0) on ring 64. -/
def opening : State := given { ready with formes := [], clusters := [(0, { ready.cluster 0 with forme := none })] } 64 (entryOf 3 0 [])

theorem witness_openForme :
    opening.starts 64 0x0003 (cmdOf (entryOf 3 0 [])) ∧ rectOk (cmdOf (entryOf 3 0 [])).rect = true ∧
    rectOk (0, 0, 127, 111) = true ∧ rectOk (0, 0, 128, 111) = false ∧ opening.holderOf [0] = none ∧ (opening.field 0).testing = 0 ∧
    ((opening.taken 64 (cmdOf (entryOf 3 0 []))).viewed 0 (cmdOf (entryOf 3 0 []))).viewRefused 0 = none ∧
    (∀ k ∈ [0, 1], let b := entryOf 8 0 [(32, 8, 0xFFFF), (40, 1, k), (41, 1, 7), (42, 1, 15)]
      (given ready 64 b).starts 64 0x0008 (cmdOf b) ∧ firstBad (windowChecks (entryReader b) 24) = none ∧
      (given ready 64 b).windowAbsent (entryReader b) 24 = none) := by
  refine ⟨starts_of (by decide +kernel), by decide +kernel, by decide, by decide, by decide +kernel, by decide +kernel, by decide +kernel,
    fun k h => ⟨starts_of ?_, ?_, ?_⟩⟩ <;> revert k <;> decide +kernel

/-- OPEN_FORME gives the forme its cluster at step 33 (R276); OPEN_WINDOW replaces one record (R283). -/
theorem test_open_forme : let s := after (.openForme 64) opening
    status s = 0 ∧ (s.forme 0).state = 1 ∧ (s.cluster 0).forme = some 0 ∧ (s.cluster 0).formeStep = 33 := by decide +kernel
theorem test_open_window :
    let s := after (.openWindow 64) (given ready 64 (entryOf 8 0 [(32, 8, 0xFFFF), (40, 1, 0), (41, 1, 7), (42, 1, 15)]))
    Map.get Window.init (s.forme 0).near 7 = { base := 0, limit := 0xFFFF, rights := 15 } ∧ status s = 0 := by decide +kernel

theorem witness_draining :
    (∀ p ∈ [(0x0004, 3), (0x0005, 1)], (asked p.2 64 p.1 []).starts 64 p.1 (cmdOf (entryOf p.1 0 []))) ∧
    (∀ close ∈ [true, false], let s := formed (fun x => { x with state := 6, closing := close })
      (s.forme 0).state = 6 ∧ (s.forme 0).closing = close ∧ s.stations.any (fun e => e.2.busyFor 0) = false ∧
      s.fports.any (fun e => e.2.busyFor 0) = false) ∧ 0 ∈ ready.formeCores 0 ∧ 4 ∉ ready.formeCores 0 := by
  refine ⟨fun p h => starts_of ?_, ?_, ?_, ?_⟩
  · revert p
    decide +kernel
  all_goals decide +kernel

/-- CLOSE_FORME drains, and the end of draining empties the forme (R279). -/
theorem test_close_forme : let s := after (.closeForme 64) (asked 3 64 0x0004 [])
    (s.forme 0).state = 6 ∧ ((after (.formeDrainDone 0) s).forme 0) = Forme.init ∧ ((after (.formeDrainDone 0) s).cluster 0).forme = none ∧
    status (after (.formeDrainDone 0) s) = 0 := by decide +kernel
theorem test_reset_forme : let s := after (.resetForme 64) (asked 1 64 0x0005 [])
    (s.forme 0).state = 6 ∧ ((after (.formeDrainDone 0) s).forme 0).state = 1 := by decide +kernel

/-! ### Long images in host memory -/

/-- Host memory that holds `n` bytes from an address, each given by its offset. -/
def image (base n : Nat) (f : Nat → Byte) : Mem := (List.range n).map (fun i => (base + i, f i))

/-- A byte of such a memory; past its end it is host memory's own. -/
def imageByte (base n : Nat) (f : Nat → Byte) (i : Nat) : Byte := if i < n then f i else Config.hostByte (base + i)

/-- Bytes of it from an offset. -/
def imageRead (base n : Nat) (f : Nat → Byte) (i : Nat) : Nat → Bytes
  | 0 => []
  | k + 1 => imageByte base n f i :: imageRead base n f (i + 1) k

theorem image_find (base n : Nat) (f : Nat → Byte) (i : Nat) :
    (image base n f).find? (fun e => e.1 == base + i) = if i < n then some (base + i, f i) else none := by
  induction n with
  | zero => simp [image]
  | succ n ih =>
    rw [image, List.range_succ, List.map_append, List.find?_append]
    rw [image] at ih
    rw [ih]
    by_cases h : i < n
    · rw [if_pos h, if_pos (by omega)]
      rfl
    · rw [if_neg h, Option.none_or]
      by_cases e : n = i
      · subst e
        simp
      · rw [if_neg (by omega)]
        simp [e]

theorem hostByte_image {s : State} {base n : Nat} {f : Nat → Byte} (h : s.hostMem = image base n f) (i : Nat) :
    s.hostByte (base + i) = imageByte base n f i := by
  rw [State.hostByte, h, image_find, imageByte]
  by_cases hi : i < n
  · rw [if_pos hi, if_pos hi]
  · rw [if_neg hi, if_neg hi]

theorem hostRead_image {s : State} {base n : Nat} {f : Nat → Byte} (h : s.hostMem = image base n f) (k : Nat) :
    ∀ i, s.hostRead (base + i) k = imageRead base n f i k := by
  induction k with
  | zero => intro i; rfl
  | succ k ih =>
    intro i
    rw [State.hostRead, imageRead, hostByte_image h, Nat.add_assoc, ih]

/-- A state before another host memory. -/
def withMem (m : Mem) (s : State) : State := { s with hostMem := m }
theorem withMem_hostMem (s : State) (m : Mem) : (withMem m s).hostMem = m := rfl

/-- An image for core 0 alone, whose program is one word, whose block 0 is enabled by INIT, and which has a router record and a window. -/
def impositionFields : List (Nat × Nat × Nat) :=
  [(0, 4, 0x4F504D49), (4, 2, 1), (6, 2, 5), (8, 8, 1536), (28, 4, 0xFFFFF),
   (64, 2, 1), (68, 4, 1), (72, 8, 192), (80, 2, 2), (84, 4, 1), (88, 8, 1216), (96, 2, 3), (100, 4, 16), (104, 8, 1280),
   (112, 2, 4), (116, 4, 1), (120, 8, 1344), (128, 2, 5), (132, 4, 1), (136, 8, 1408),
   (196, 2, 9), (198, 2, 3), (204, 2, 1), (262, 1, 8), (1216, 4, 0x0400007F), (1416, 8, 0xFFFF), (1424, 1, 1), (1426, 1, 15)]

/-- The image's bytes read through their offset. -/
def impositionRd : Rd := fun off k => ofLe (imageRead 0x100000 1536 (sparse impositionFields) off k)

/-- The module with forme 0 OPEN, that image in host memory, and one LOAD_IMPOSITION on ring 0. -/
def loading : State :=
  withMem (image 0x100000 1536 (sparse impositionFields)) (asked 1 0 0x1001 [(16, 8, 0x100000), (24, 8, 1536)])

theorem loading_reads : (fun off k => loading.hostNat (0x100000 + off) k) = impositionRd := by
  have h : loading.hostMem = image 0x100000 1536 (sparse impositionFields) := withMem_hostMem _ _
  funext off k
  exact congrArg ofLe (hostRead_image h k off)

theorem witness_loadImposition :
    (∀ l ∈ [[(16, 8, 0x100000), (24, 8, 1536)], [(16, 8, 2 ^ 60), (24, 8, 64)]], (asked 1 0 0x1001 l).starts 0 0x1001 (cmdOf (entryOf 0x1001 0 l))) ∧
    loading.starts 0 0x1001 (cmdOf (entryOf 0x1001 0 [(16, 8, 0x100000), (24, 8, 1536)])) ∧
    loading.hostAdmits 0 0x100000 1536 0 = true ∧ loading.hostAdmits 0 (2 ^ 60) 64 0 = false ∧
    loading.judgeImage (fun off k => loading.hostNat (0x100000 + off) k) 0 1536 = none ∧
    (sectionOf (fun off k => loading.hostNat (0x100000 + off) k) 1).count = 1 ∧
    (loading.judgeImage (fun off k => loading.hostNat (0x100000 + off) k) 0 1472).isSome = true := by
  rw [loading_reads]
  refine ⟨fun l h => starts_of ?_, starts_of ?_, ?_, ?_, ?_, ?_, ?_⟩
  · revert l
    decide +kernel
  all_goals decide +kernel

/-- The module with forme 0 LOADED, whose tree 3 goes out by port 0, and one RUN. -/
def loaded (bound : Option Binding) : State :=
  { given (formed (fun x => { x with state := 2, trees := [(3, { Tree.init with external := true, port := 0 })] })) 0 (entryOf 0x1005 0 []) with
    cores := [(0, { Core.init with st := .quoin, blocks := [(5, { Block.init with initEn := true })] })]
    fports := [(0, { FPort.init with bound := bound })] }

/-- One WAIT_QUOIN of a tree with a target, at a forme whose tree 3 has released twice. -/
def awaits (target : Nat) : State :=
  given (formed (fun x => { x with trees := [(3, { Tree.init with releases := 2 })] })) 0 (entryOf 0x1006 0 [(16, 1, 3), (20, 4, target)])

theorem witness_runAndWait :
    (∀ b ∈ [some ⟨0, 7, 0⟩, none], (loaded b).starts 0 0x1005 (cmdOf (entryOf 0x1005 0 []))) ∧ (loaded (some ⟨0, 7, 0⟩)).treesBound 0 = true ∧
    (loaded none).treesBound 0 = false ∧
    (∀ n ∈ [2, 3], (awaits n).starts 0 0x1006 (cmdOf (entryOf 0x1006 0 [(16, 1, 3), (20, 4, n)]))) ∧
    ((awaits 2).tree 0 3).releases = 2 := by
  refine ⟨fun b h => starts_of ?_, ?_, ?_, fun n h => starts_of ?_, ?_⟩
  · revert b
    decide +kernel
  · decide +kernel
  · decide +kernel
  · revert n
    decide +kernel
  · decide +kernel

/-- RUN wakes the forme's cores with their INIT enables (R297); WAIT_QUOIN answers with the counter (R300). -/
theorem test_run : let s := after (.run 0) (loaded (some ⟨0, 7, 0⟩))
    (s.forme 0).state = 3 ∧ (s.core 0).st = .sleep ∧ (s.core 0).enabled 5 = true ∧ (s.core 0).enabled 4 = false ∧
    (s.ring 0).cmds.length = 1 ∧ status (after (.run 0) (loaded none)) = 2 := by decide +kernel
theorem test_wait_quoin : ((after (.waitQuoin 0) (awaits 2)).hostNat 0x20018 8) = 2 ∧ ((after (.waitQuoin 0) (awaits 3)).ring 0).cmds.length = 1 := by
  decide +kernel

/-! ### Admin commands -/

/-- A used core 0 and one admin entry on ring 64, forme 0 OPEN. -/
def admin (b : Bytes) : State :=
  { given (formed (fun x => { x with state := 1 })) 64 b with cores := [(0, { Core.init with st := .stopped, store := [(8, 3)], pc := 9 })] }

/-- A port of forme 0. -/
def boundPort (b : Option Binding) (s : State) : State := { s with fports := [(0, { FPort.init with bound := b })] }

theorem witness_adminUnits :
    (∀ op ∈ [0x0006, 0x0007], (admin (entryOf op 0 [])).starts 64 op (cmdOf (entryOf op 0 []))) ∧
    ready.presentHere (coreAt 0 0) = true ∧ (clusterCores (clusterAt 0 0)).filter ready.presentHere ≠ [] ∧ ready.formeOf (coreAt 0 0) = some 0 ∧
    (∀ p ∈ [(0, 7), (1, 0)], let b := entryOf 9 0 [(18, 1, p.1), (20, 2, p.2)]
      (boundPort (if p.1 = 1 then some ⟨0, 7, 0⟩ else none) (admin b)).starts 64 0x0009 (cmdOf b) ∧ (cmdOf b).unbinds = decide (p.1 = 1) ∧
      (boundPort (if p.1 = 1 then some ⟨0, 7, 0⟩ else none) (admin b)).portRefused 0 0 = none) ∧
    ready.edgeCores 0 0 ≠ [] ∧ (admin (entryOf 0x000A 0 [])).starts 64 0x000A (cmdOf (entryOf 0x000A 0 [])) ∧
    stereoEntry (le 0 4 ++ le 9 4 ++ le 5 4 ++ le 3 1 ++ zeros 3) ≠ none := by
  refine ⟨fun op h => starts_of ?_, ?_, ?_, ?_, fun p h => ⟨starts_of ?_, ?_, ?_⟩, ?_, starts_of ?_, ?_⟩
  · revert op
    decide +kernel
  · decide +kernel
  · decide +kernel
  · decide +kernel
  · revert p
    decide +kernel
  · revert p
    decide +kernel
  · revert p
    decide +kernel
  · decide +kernel
  · decide +kernel
  · decide +kernel

/-- RESET_CORE and RESET_CLUSTER leave the store and take the rest (R505). -/
theorem test_reset_core : ∀ p ∈ [(0x0007, Instr.resetCore 64), (0x0006, Instr.resetCluster 64)],
    (coreAfter p.2 (admin (entryOf p.1 0 []))).st = .empty ∧ (coreAfter p.2 (admin (entryOf p.1 0 []))).pc = 0 ∧
    (coreAfter p.2 (admin (entryOf p.1 0 []))).store.read 8 = 3 := by decide +kernel
/-- BIND_FEEDER and its unbind form (R365); SET_STEREO (R367). -/
theorem test_bind_feeder :
    ((after (.bindFeeder 64) (admin (entryOf 9 0 [(20, 2, 7), (24, 4, 11)]))).fport 0).bound = some ⟨0, 7, 11⟩ ∧
    ((after (.unbindFeeder 64) (boundPort (some ⟨0, 7, 0⟩) (admin (entryOf 9 0 [(18, 1, 1)])))).fport 0).bound = none := by decide +kernel
theorem test_set_stereo :
    ((after (.setStereo 64) { admin (entryOf 0x000A 0 [(17, 1, 1), (24, 8, 0x5000)]) with
      hostMem := memOf 0x5000 (le 1 4 ++ le 9 4 ++ le 5 4 ++ le 3 1 ++ zeros 19) }).forme 0).stereo = [⟨1, 9, 5, 3⟩] := by decide +kernel

/-- The operands of a good SET_CLOCKS of each kind: kind, MHz and mask. -/
def clockOperands : List (Nat × Nat × Nat) := [(0, 3300, 0), (1, 2000, 2 ^ 55 + 1), (2, 500, 2 ^ 15), (3, 400, 0), (4, 200, 0)]

/-- The SET_CLOCKS of those operands. -/
def clockEntry (p : Nat × Nat × Nat) : Bytes := entryOf 2 0 [(16, 1, p.1), (18, 2, p.2.1), (24, 8, p.2.2)]

/-- The module with edge clock changes of every kind to come. -/
def changing : State := { ready with clocks := { ready.clocks with pending := [(1, 0, 1200), (2, 0, 600), (3, 0, 200), (4, 0, 300)] } }

theorem witness_clockSettings :
    (∀ p ∈ clockOperands, (given (formed (fun x => { x with state := 1 })) 64 (clockEntry p)).starts 64 0x0002
      (cmdOf (clockEntry p)) ∧ clockRefused (clockEntry p) = none) ∧
    (∀ n < 4, (changing.clocks.pending[n]?).map (fun d => (d.1, d.2.1)) = some (n + 1, 0)) ∧
    ∀ n < 4, ∀ j < n, (changing.clocks.pending[j]?).map (fun d => (d.1, d.2.1)) ≠ some (n + 1, 0) := by
  refine ⟨fun p h => ⟨starts_of ?_, ?_⟩, ?_, ?_⟩
  · revert p
    decide +kernel
  · revert p
    decide +kernel
  · decide
  · decide

/-- SET_CLOCKS sets a forme's step now and an edge clock at CLOCK_CHANGE (R460, R470). -/
theorem test_set_clocks : ((after (.setClocks 64) (given (formed (fun x => { x with state := 1 })) 64 (clockEntry (0, 1200, 0)))).forme 0).clockStep = 12 ∧
    (after (.clockChange 2) changing).clocks.sbc = 200 ∧ ((after (.clockChange 0) changing).field 0).stc = 1200 := by decide +kernel

/-! ### Plan, test and documents -/

/-- A byte of a plan with every setpoint 800 mV and every cap at step 33. -/
def planByte (i : Nat) : Byte :=
  if i < 128 then sparse [(0, 4, 0x4441454C), (4, 2, 1), (8, 8, State.reset.phys.serial), (16, 4, 2), (20, 4, 1), (24, 4, 172416)] i
  else if i < 352 then (if i % 4 = 0 then 0x20 else if i % 4 = 1 then 3 else 0)
  else if i < 384 then 0
  else if (i - 384) % 12 = 1 then 33 else 0

/-- The plan's bytes read through their offset. -/
def planRd : Rd := fun off k => ofLe (imageRead 0x100000 172416 planByte off k)

/-- The entry that loads that plan, and the module with it in host memory. -/
def planEntry : Bytes := entryOf 1 0 [(16, 8, 0x100000), (24, 4, 172416)]
def planning : State := withMem (image 0x100000 172416 planByte) (given ready 64 planEntry)

theorem planning_reads : (fun off k => planning.hostNat (bytesAt planEntry 16 8 + off) k) = planRd := by
  have h : planning.hostMem = image 0x100000 172416 planByte := withMem_hostMem _ _
  have a : bytesAt planEntry 16 8 = 0x100000 := by decide +kernel
  funext off k
  rw [a]
  exact congrArg ofLe (hostRead_image h k off)

/-- A byte of a cluster record of the plan. -/
theorem planRd_lead {k j : Nat} (h : k < 14336) (hj : j < 4) : planRd (384 + 12 * k + j) 1 = if j = 1 then 33 else 0 := by
  have e : planByte (384 + 12 * k + j) = if j = 1 then 33 else 0 := by
    rw [planByte, if_neg (by omega), if_neg (by omega), if_neg (by omega)]
    by_cases c : j = 1
    · rw [if_pos c, if_pos (by omega)]
    · rw [if_neg c, if_neg (by omega)]
  rw [planRd, imageRead, imageRead, imageByte, if_pos (by omega), e]
  by_cases c : j = 1
  · rw [if_pos c, if_pos c]
    rfl
  · rw [if_neg c, if_neg c]
    rfl

/-- Every cluster record of the plan is good. -/
theorem planning_leads {k : Nat} (h : k < 14336) : planLeadOk planRd k = true := by
  have a := planRd_lead (j := 0) h (by decide)
  have b := planRd_lead (j := 1) h (by decide)
  have c := planRd_lead (j := 2) h (by decide)
  have d := planRd_lead (j := 3) h (by decide)
  simp only [Nat.add_zero] at a
  rw [planLeadOk, leadAt]
  simp only [Rd.zero, a, b, c, d]
  decide

/-- The entry that the plan's checks of its header and its fields read. -/
theorem planning_front : (decide (planRd 0 4 = 0x4441454C ∧ planRd 4 2 = 1 ∧ planRd 8 8 = planning.phys.serial ∧ planRd 24 4 = planLen)
    && planRd.zero 6 2 && planRd.zero 28 4 && planRd.zero 64 64 && planRd.zero 352 32
    && (maskList planning.enabledMask 56).all (planFieldOk planRd)) = true := by decide +kernel

theorem planning_ok : planning.planOk planRd planning.enabledMask = true := by
  rw [State.planOk, planning_front, Bool.true_and, List.all_eq_true]
  intro k hk
  rw [planning_leads (by simpa [allClusters] using hk), Bool.or_true]

/-- A START_TEST of a mask of fields, and one of each kind of document. -/
def testing (mask : Nat) : State := given (formed (fun x => { x with state := 0, cx1 := 0 })) 64 (entryOf 0x000D 0 [(24, 8, mask)])

theorem witness_planAndTest :
    planning.starts 64 0x0001 (cmdOf planEntry) ∧ bytesAt planEntry 24 4 = planLen ∧
    planning.planOk (fun off k => planning.hostNat (bytesAt planEntry 16 8 + off) k) planning.enabledMask = true ∧
    (given { ready with hostMem := memOf 0x100000 (zeros 4) } 64 planEntry).starts 64 0x0001 (cmdOf planEntry) ∧
    (given { ready with hostMem := memOf 0x100000 (zeros 4) } 64 planEntry).planOk
      (fun off k => (given { ready with hostMem := memOf 0x100000 (zeros 4) } 64 planEntry).hostNat (bytesAt planEntry 16 8 + off) k)
      planning.enabledMask = false ∧
    (∀ mask ∈ [0, 2 ^ 55 + 2], (testing mask).starts 64 0x000D (cmdOf (entryOf 0x000D 0 [(24, 8, mask)])) ∧
      (testing mask).testRefused 0 mask = none) := by
  rw [planning_reads]
  refine ⟨starts_of ?_, ?_, planning_ok, starts_of ?_, ?_, fun mask h => ⟨starts_of ?_, ?_⟩⟩
  · decide +kernel
  · decide +kernel
  · decide +kernel
  · decide +kernel
  · revert mask
    decide +kernel
  · revert mask
    decide +kernel

/-- START_TEST puts its fields under test (R503). -/
theorem test_start_test : let s := after (.startTest 64) (testing 6)
    (s.field 1).testing = 1 ∧ (s.field 2).testing = 1 ∧ (s.field 0).testing = 0 ∧ status (after (.startTest 64) (testing 0)) = 0 := by
  decide +kernel

/-- A QUERY of core 0's router record. -/
def asking (len : Nat) : Bytes := entryOf 0x000B 0 [(16, 2, 4), (32, 8, 0x5000), (40, 4, len)]

/-- An ATTEST or a HELLBOX_EXPORT with room for so many bytes. -/
def document (op room : Nat) : State := given ready 64 (entryOf op 0 [(16, 8, 0x5000), (24, 4, room)])

theorem witness_documents :
    (∀ n ∈ [63, 64], (given ready 64 (asking n)).starts 64 0x000B (cmdOf (asking n)) ∧ queryBad (asking n) = none ∧
      bytesAt (asking n) 32 8 % 32 = 0 ∧ bytesAt (asking n) 40 4 = n) ∧
    (((given ready 64 (asking 64)).taken 64 (cmdOf (asking 64))).queryBytes (asking 64)).1.length = 64 ∧
    (∀ p ∈ [(0x000C, 17471), (0x000C, 17472), (0x000E, 17151), (0x000E, 17152)],
      (document p.1 p.2).starts 64 p.1 (cmdOf (entryOf p.1 0 [(16, 8, 0x5000), (24, 4, p.2)]))) ∧
    (document 0x000E 0).additionsBytes.length + 17088 = 17152 := by
  refine ⟨fun n h => ⟨starts_of ?_, ?_, ?_, ?_⟩, ?_, fun p h => starts_of ?_, ?_⟩
  · revert n
    decide +kernel
  · revert n
    decide +kernel
  · revert n
    decide +kernel
  · revert n
    decide +kernel
  · decide +kernel
  · revert p
    decide +kernel
  · decide +kernel

/-- QUERY writes its answer's bytes, or answers NOSPACE (R439). -/
theorem test_query : (let s := after (.query 64) (given ready 64 (asking 64))
    status s = 0 ∧ s.hostNat 0x20018 8 = 64 ∧ s.hostNat 0x5000 8 = bytesAt (ready.router 0).record 0 8) ∧
    status (after (.query 64) (given ready 64 (asking 63))) = 15 := by decide +kernel
/-- ATTEST asks for a signature (R572). -/
theorem test_attest : (after (.attest 64) (document 0x000C 17471)).hostNat 0x2000A 1 = 15 := by decide +kernel

/-! ### Memory stations -/

/-- A request of core 0: operation, flags, address, length and argument, with payload slots. -/
def request (op flags addr len arg : Nat) (slots : List Slot) : Msg :=
  { Msg.mk0 MT.stationOp (if op < 8 then 0 else 1) 0 2 0 0 0 3 slots with
    opw := BitVec.ofNat 128 (op + flags * 2 ^ 8 + addr * 2 ^ 32 + len * 2 ^ 80 + arg * 2 ^ 96) }

/-- A clean slot of 32-bit words, the first as given. -/
def words (l : List Nat) : Slot := slotOf (padTo (l.flatMap (fun w => le w 4)) 32)

/-- Station 0 of the ready module as given, with a request in its queue. -/
def atStation (x : Station) (m : Msg) : State :=
  { ready with stations := [(0, if m.vc = 0 then { x with q0 := [m] } else { x with q1 := [m] })] }

/-- The check of `State.serves` as a test. -/
def servesNow (s : State) (n op : Nat) (m : Msg) : Bool :=
  decide ((s.station n).next = some m) && decide (m.typ = MT.stationOp) && !s.ratioBroken n && s.stationPresent n && !s.nearTesting (n / 8)
    && m.requestOk && decide (dOp m.desc = op) && !m.fromHost && !(s.station n).answers.any (fun a => a.along m)

theorem serves_of {s : State} {n op : Nat} {m : Msg} (h : servesNow s n op m = true) : s.serves n op m := by
  simp only [servesNow, Bool.and_eq_true, decide_eq_true_eq, Bool.not_eq_true'] at h
  obtain ⟨⟨⟨⟨⟨⟨⟨⟨front, kind⟩, ratio⟩, here⟩, untested⟩, sound⟩, op⟩, core⟩, first⟩ := h
  exact ⟨front, kind, ratio, here, untested, sound, op, core, first⟩

/-- A station none of whose codewords was upset is sound. -/
theorem sound_of {x : Station} (h : x.ecc = [] ∧ soundSlots (x.comb.map (·.slot)) ∧ (x.comb.map (·.line)).Nodup ∧
    ∀ e ∈ x.ctx, e.2.cw = .clean ∨ e.2.cw = .poison) : x.sound := by
  refine ⟨fun k => ?_, h.2⟩
  rw [h.1]
  exact Or.inl rfl

/-- The station after a command. -/
def stationAfter (i : Instr) (s : State) : Station := (after i s).station 0

/-- The status of the answer that the gate core's router took in. -/
def answerCode (s : State) : List Nat :=
  ((s.router 0).inq.flatMap (·.2)).map (fun b => bytesAt (b.msg.slots.getLastD zeroSlot).bytes 0 1)

/-- Station 0 whose memory holds bytes at 0x1000 and at the buffer's start. -/
def stored : Station := { Station.init with mem := memOf 0x1000 ((List.range 64).map (fun i => BitVec.ofNat 8 (i + 1))) }

/-- A LIVE context of forme 0 over the first 4096 bytes at 0x1000. -/
def live : Ctx := { Ctx.init with base := 0x1000, length := 0x1000, generation := 3, forme := 0, live := true }

/-- One request of each access, at the ends of its ranges. -/
def accesses : List (Nat × Msg) :=
  [(1, request 1 0 0x1000 1 0 []), (1, request 1 0 (0x140000000 - 224) 7 0 []), (1, request 1 1 0x1000 7 4095 []),
   (2, request 2 0 0x1000 1 0 [words [7]]), (2, request 2 0 0x1000 8 0 (List.replicate 8 (words [7]))),
   (3, request 3 0 0x1000 1 0 [words [2]]), (3, request 3 0 0x1000 56 0 (List.replicate 7 (words [1, 0]))),
   (4, request 4 0 0x1000 1 3 [words [1], words [9]]), (4, request 4 0 0x1000 8 2 (words [0, 1, 2, 3, 4, 5, 6, 7] :: List.replicate 4 (words [9])))]

theorem witness_stationAccess :
    (∀ p ∈ accesses, (atStation stored p.2).serves 0 p.1 p.2) ∧ (∀ p ∈ accesses, ((atStation stored p.2).station 0).sound) ∧
    (∀ p ∈ accesses, p.1 = 1 → p.2.len = 0 ∧ (atStation stored p.2).access 0 0 [⟨dAddr p.2.desc, 32 * dLen p.2.desc, 0⟩] = 0) ∧
    (∀ p ∈ accesses, p.1 = 2 → p.2.len = dLen p.2.desc ∧ (atStation stored p.2).access 0 0 [⟨dAddr p.2.desc, 32 * dLen p.2.desc, 1⟩] = 0) ∧
    (∀ p ∈ accesses, p.1 = 3 → p.2.len = (dLen p.2.desc + 7) / 8 ∧ (∀ w ∈ codewords p.2.slots, w = .clean) ∧
      (atStation stored p.2).access 0 0 ((elemAddrs p.2.desc p.2.slots).map (fun a => ⟨a, esize p.2.desc, 0⟩)) = 0) ∧
    (∀ p ∈ accesses, p.1 = 4 → p.2.len = 1 + (dLen p.2.desc * esize p.2.desc + 31) / 32 ∧ (∀ w ∈ codewords p.2.slots, w = .clean) ∧
      (atStation stored p.2).access 0 0 ((elemAddrs p.2.desc (p.2.slots.take 1)).map (fun a => ⟨a, esize p.2.desc, 1⟩)) = 0) ∧
    ready.gateOf 0 0 = some 0 := by
  refine ⟨fun p h => serves_of ?_, fun p h => sound_of ?_, ?_, ?_, ?_, ?_, ?_⟩
  · revert p
    decide +kernel
  · revert p
    decide +kernel
  all_goals decide +kernel

/-- READ, WRITE, GATHER and SCATTER on station memory (R315, R318). -/
theorem test_station_read : let s := after (.stationRead 0 Obs.quiet) (atStation stored (request 1 0 0x1000 1 0 []))
    ((s.router 0).inq.flatMap (·.2)).map (fun b => bytesAt (b.msg.slots.headD zeroSlot).bytes 0 2) = [0x0201] ∧ answerCode s = [0] := by
  decide +kernel
theorem test_station_write :
    (let x := stationAfter (.stationWrite 0 Obs.quiet) (atStation { stored with ctx := [(2, live)] } (request 2 0 0x1000 1 0 [words [7]]))
     x.mem.readN 0x1000 4 = [7, 0, 0, 0] ∧ x.mem.read 0x1020 = 33 ∧ (Map.get Ctx.init x.ctx 2).writer = some 0) ∧
    answerCode (after (.stationWrite 0 Obs.quiet) (atStation stored (request 2 0 0x1001 1 0 [words [7]]))) = [3] := by decide +kernel
theorem test_gather : let s := after (.gather 0 Obs.quiet) (atStation stored (request 3 0 0x1000 2 0 [words [2, 1]]))
    ((s.router 0).inq.flatMap (·.2)).map (fun b => bytesAt (b.msg.slots.headD zeroSlot).bytes 0 8) = [0x080706050C0B0A09] := by decide +kernel
theorem test_scatter : let x := stationAfter (.scatter 0 Obs.quiet) (atStation stored (request 4 0 0x1000 2 0 [words [2, 2], words [8, 9]]))
    x.mem.readN 0x1008 4 = [9, 0, 0, 0] ∧ x.mem.read 0x100C = 13 := by decide +kernel

/-- An ACCUM of one FP32 line of 1.0 with bucket 5. -/
def adds (addr arg : Nat) : Msg := { request 5 0 addr 1 arg [words [0x3F800000]] with tag := 9 }

/-- A station that holds the key of that contribution. -/
def keyed : Station := { stored with idem := [(adds 0x1000 5).contrib.key] }

/-- A station whose record holds `n` keys of another bucket. -/
def recordOf (n : Nat) : Station := { stored with idem := List.replicate n ⟨6, 0, 0⟩ }

theorem recordOf_facts (n : Nat) : ((recordOf n).pruned (adds 0x1000 5).contrib).idem.length = n ∧
    ((recordOf n).pruned (adds 0x1000 5).contrib).hasKey (adds 0x1000 5).contrib = false := by
  have b : (adds 0x1000 5).contrib.bucket = 5 := by decide +kernel
  have k : (adds 0x1000 5).contrib.key ≠ ⟨6, 0, 0⟩ := by decide +kernel
  have e : ((recordOf n).pruned (adds 0x1000 5).contrib).idem = List.replicate n ⟨6, 0, 0⟩ := by
    simp [recordOf, Station.pruned, b]
  rw [Station.hasKey, e]
  exact ⟨List.length_replicate, by simp [List.contains_eq_mem, List.mem_replicate, k]⟩

/-- CONVERTs: FP32 to FP16 in place elsewhere, and onto itself. -/
def converts : List Msg :=
  [request 6 0 0x1000 1 0x020 [words [0x2000]], request 6 0 0x1000 1 0x000 [words [0x1000]], request 6 0 0x1000 1 0x10B [words [0x2000]]]

/-- A recipe of one step, r0 := r0 * k0, over eight elements at 0x1000, and a station that holds it at 0x3000. -/
def recipeBytes : Bytes := le 1 1 ++ le 1 1 ++ zeros 2 ++ le 8 4 ++ le (0x1000 + 3 * 2 ^ 40) 8 ++ zeros 24 ++ le 0x40000000 4 ++ zeros 84
  ++ le 0x70000000 4 ++ zeros 124
def recipeStation : Station := { Station.init with
  mem := Mem.writeN (Mem.writeN [] 0x1000 (le 0x3F800000 4 ++ le 0x40400000 4)) 0x3000 recipeBytes }

/-- A station whose combining area holds a sum for the line at 0x1000. -/
def summing : Station := { stored with comb := [⟨0x80, 0, words [0x3F800000]⟩] }

theorem witness_stationCompute :
    (∀ m ∈ [adds 0x1000 5, adds 0x180000000 5, adds 0x1000 0], (atStation stored m).serves 0 5 m ∧ ((atStation stored m).station 0).sound ∧
      soundSlots m.slots ∧ (atStation stored m).access 0 0 [⟨dAddr m.desc, 32, 2⟩] = 0 ∧ m.len = 1 ∧ bits (dArg m.desc) 25 24 ≠ 3 ∧
      (stored.pruned m.contrib).hasKey m.contrib = false ∧ stored.replay = none ∧ m.tag < 65536) ∧ ((atStation summing (adds 0x1000 5)).station 0).sound ∧
    (keyed.pruned (adds 0x1000 5).contrib).hasKey (adds 0x1000 5).contrib = true ∧ 262144 ≤ ((recordOf 262144).pruned (adds 0x1000 5).contrib).idem.length ∧
    ((recordOf 262143).pruned (adds 0x1000 5).contrib).idem.length < 262144 ∧
    (∀ m ∈ converts, (atStation stored m).serves 0 6 m ∧ (∀ w ∈ codewords m.slots, w = .clean) ∧
      convertible (bits (dArg m.desc) 3 0) = true ∧ convertible (bits (dArg m.desc) 7 4) = true ∧
      (atStation stored m).access 0 0 [⟨dAddr m.desc, 32 * fmtStream (bits (dArg m.desc) 3 0) / 8, 1⟩,
        ⟨bytesAt ((m.slots.headD zeroSlot).bytes) 0 8, 32 * fmtStream (bits (dArg m.desc) 7 4) / 8, 1⟩] = 0) ∧
    (atStation recipeStation (request 7 0 0x3000 0 0 [])).serves 0 7 (request 7 0 0x3000 0 0 []) ∧
    (∃ r, recipeOf (recipeStation.mem.readN 0x3000 256) = some r ∧ (atStation recipeStation (request 7 0 0x3000 0 0 [])).access 0 0 (r.accesses 0) = 0 ∧
      (atStation recipeStation (request 7 0 0x3000 0 0 [])).access 0 0 [⟨0x3000, 256, 2⟩] = 0) ∧
    (∀ k ∈ [1, 65535], (atStation summing (request 11 0 0 k 0 [])).serves 0 11 (request 11 0 0 k 0 []) ∧
      (atStation summing (request 11 0 0 k 0 [])).access 0 0 [⟨0, 65536 * k, 2⟩] = 0) ∧
    (summing.comb.map (·.line)).Nodup := by
  refine ⟨fun m h => ⟨serves_of ?_, sound_of ?_, ?_⟩, sound_of (by decide +kernel), ?_, Nat.le_of_eq (recordOf_facts _).1.symm,
    Nat.lt_of_le_of_lt (Nat.le_of_eq (recordOf_facts _).1) (by decide), fun m h => ⟨serves_of ?_, ?_, ?_, ?_, ?_⟩,
    serves_of ?_, ⟨⟨8, [some ⟨0x1000, 0, 3⟩, none, none, none], [0x40000000, 0, 0, 0, 0, 0, 0, 0], [0x70000000]⟩, by decide +kernel⟩,
    fun k h => ⟨serves_of ?_, ?_⟩, ?_⟩
  · revert m
    decide +kernel
  · revert m
    decide +kernel
  · revert m
    decide +kernel
  · decide +kernel
  · revert m
    decide +kernel
  · revert m
    decide +kernel
  · revert m
    decide +kernel
  · revert m
    decide +kernel
  · revert m
    decide +kernel
  · decide +kernel
  · revert k
    decide +kernel
  · revert k
    decide +kernel
  · decide +kernel

/-- ACCUM adds in place in the buffer and combines for DRAM (R326, R328); a held key is DUP (R327). -/
theorem test_accum :
    (stationAfter (.accum 0 Obs.quiet) (atStation { stored with mem := Mem.writeN [] 0x180000000 (le 0x3F800000 4) } (adds 0x180000000 5))).mem.readN
      0x180000000 4 = le 0x40000000 4 ∧
    (stationAfter (.accum 0 Obs.quiet) (atStation summing (adds 0x1000 5))).comb = [⟨0x80, 0, words [0x40000000]⟩] ∧
    (stationAfter (.accum 0 Obs.quiet) (atStation keyed (adds 0x1000 5))).dup = 1 := by decide +kernel
theorem test_convert : (stationAfter (.convert 0 Obs.quiet) (atStation recipeStation (converts.headD (adds 0 0)))).mem.readN 0x2000 4 = le 0x42003C00 4 := by
  decide +kernel
theorem test_update : (stationAfter (.stationUpdate 0 Obs.quiet) (atStation recipeStation (request 7 0 0x3000 0 0 []))).mem.readN 0x1000 8 =
    le 0x40000000 4 ++ le 0x40C00000 4 := by decide +kernel
theorem test_flush : let x := stationAfter (.flush 0 Obs.quiet) (atStation { summing with mem := Mem.writeN [] 0x1000 (le 0x3F800000 4) } (request 11 0 0 1 0 []))
    x.comb = [] ∧ x.mem.readN 0x1000 4 = le 0x40000000 4 := by decide +kernel

/-- The context entry 2's handle at station 0. -/
def handle : Nat := ctxHandle 0 2 3

/-- A station whose entries 0 and 1 are LIVE and whose entry 2 is LIVE for forme 0. -/
def contexts : Station := { stored with
  ctx := [(0, { live with base := 0x10000 }), (1, { live with base := 0x20000 }), (2, live)] }

/-- A contribution that waits for its turn, alone in its list. -/
def heldOne : Contrib := (adds 0x1000 5).contrib
def replaying (b : Nat) : Station := { stored with heldContribs := [heldOne], replay := some ⟨0, 0, 9, [⟨b, 9, 0, 0x1000, false, heldOne.contributor⟩]⟩ }

theorem witness_stationContexts :
    contexts.sound ∧ (∀ p ∈ [(8, request 8 0 0x40000 0 0x80 []), (9, request 9 0 0 0 handle []), (10, request 10 0 0 0 handle [])],
      (atStation contexts p.2).serves 0 p.1 p.2 ∧ p.2.len = 0 ∧ dLen p.2.desc = 0) ∧ ready.phys.stacked = true ∧
    (atStation contexts (request 8 0 0x40000 0 0x80 [])).misplaced 0 ⟨0x40000, 0x1000, 1⟩ = none ∧ ready.nearAdmits 0 0x40000 0x1000 1 = true ∧
    (∀ e ∈ contexts.ctx, e.2.live = true → e.2.base + e.2.length ≤ 0x40000 ∨ 0x41000 ≤ e.2.base) ∧
    (∀ j < 3, (Map.get Ctx.init contexts.ctx j).live = true ∧ (Map.get Ctx.init contexts.ctx j).cw ≠ .poison) ∧ (Map.get Ctx.init contexts.ctx 3).live = false ∧
    bits (dArg (request 9 0 0 0 handle []).desc) 9 0 = 2 ∧ bits (dArg (request 9 0 0 0 handle []).desc) 31 19 = live.generation % 2 ^ 13 ∧
    ready.nearAdmits 0 live.base live.length 0 = true ∧ ready.nearAdmits 0 live.base live.length 1 = true ∧
    (replaying 5).dueContrib false = some heldOne ∧ ({ replaying 5 with replay := some ⟨0, 0, 9, [⟨5, 9, 0, 0x1020, false, 0⟩]⟩ } : Station).dueContrib false
      = none ∧ heldOne.bucket ≠ 0 ∧ (∀ k ∈ (replaying 5).idem, k.bucket ≠ heldOne.bucket) := by
  refine ⟨sound_of (by decide +kernel), fun p h => ⟨serves_of ?_, ?_⟩, by decide +kernel⟩
  · revert p
    decide +kernel
  · revert p
    decide +kernel

/-- Contexts are allocated lowest first, resolved and freed (R336-R338). -/
theorem test_contexts :
    (Map.get Ctx.init (stationAfter (.ctxAlloc 0 Obs.quiet) (atStation contexts (request 8 0 0x40000 0 0x80 []))).ctx 3).live = true ∧
    answerCode (after (.ctxResolve 0 Obs.quiet) (atStation contexts (request 9 0 0 0 (handle + 2 ^ 19) []))) = [2] ∧
    (Map.get Ctx.init (stationAfter (.ctxFree 0 Obs.quiet) (atStation contexts (request 10 0 0 0 handle []))).ctx 2) =
      { live with live := false, generation := 4 } := by decide +kernel
theorem test_ordered_replay : let x := stationAfter (.orderedReplayApply 0) { ready with stations := [(0, replaying 5)] }
    x.heldContribs = [] ∧ x.idem = [heldOne.key] ∧ x.replay.map (·.list) = some [] := by decide +kernel

/-- A slow island beside station 0, which has a request. -/
def tooSlow : State := { atStation stored (adds 0x1000 5) with clusters := [(0, { ready.cluster 0 with ladder := 8 })]
                                                               fields := [(0, { ready.field 0 with stc := 2000 })] }

theorem witness_stationUpkeep :
    ready.stationPresent 447 = true ∧ ready.stationPresent 448 = false ∧ State.reset.stationPresent 0 = false ∧
    (({ ready with fields := [(0, { ready.field 0 with dark := true })] } : State).field (7 / 8)).dark = true ∧
    (tooSlow.station 0).next = some (adds 0x1000 5) ∧ (adds 0x1000 5).typ = MT.stationOp ∧ tooSlow.ratioBroken 0 = true := by decide +kernel

/-- A patrol scrub corrects and poisons (R341); a request at a station faster than twice its island's clock changes no core (R467). -/
theorem test_patrol_scrub : let x := stationAfter (.patrolScrub 0 Obs.quiet) { ready with
      stations := [(0, { stored with ecc := [(0x100, .correctable), (0x101, .uncorrectable)] })] }
    x.ecc = [(0x101, .poison)] ∧ x.corrected = 1 ∧ x.uncorrected = 1 := by decide +kernel
theorem test_clock_ratio : (after (.stationRead 0 Obs.quiet) tooSlow).cores = tooSlow.cores := by rfl

/-! ### Split commands and contexts -/

/-- A part of 32 bytes by its fields. -/
def partOf (l : List (Nat × Nat × Nat)) : Bytes := (List.range 32).map (sparse l)

/-- A LOAD_TENSOR or READ_TENSOR part; an UPDATE part; ACCUMULATE_OUT parts to the near tier and from cores; a STREAM_LAYER part. -/
def loadPart : Bytes := partOf [(0, 8, 0x8000), (8, 8, 0x1000), (16, 8, 32)]
def updatePart : Bytes := partOf [(0, 8, 0x3000)]
def nearPart : Bytes := partOf [(0, 1, 0), (2, 2, 9), (4, 4, 5), (8, 8, 32), (16, 8, 0x8000), (24, 8, 0x180000000)]
def corePart : Bytes := partOf [(0, 1, 3), (2, 2, 9), (4, 4, 5), (8, 4, 5), (16, 8, 2)]
def streamPart : Bytes := partOf [(0, 1, 3), (4, 4, 16), (8, 8, 0x1234), (16, 8, 2 ^ 63 + 5 * 2 ^ 36)]

/-- An entry with `n` parts at 0x5000 and a target. -/
def splitEntry (op n target : Nat) : Bytes := entryOf op 0 [(16, 8, 0x5000), (24, 1, n), (25, 1, target)]

/-- Forme 0 in a state with port 3 UP and bound to it, one split command on ring 0, and its table and some data in host memory. -/
def splitting (st op n target : Nat) (tab : List Bytes) : State :=
  { given (formed (fun x => { x with state := st })) 0 (splitEntry op n target) with
    fports := [(3, { FPort.init with link := 3, bound := some ⟨0, 7, 11⟩, reqNext := 40 })]
    hostMem := memOf 0x5000 tab.flatten ++ memOf 0x8000 ((List.range 32).map (fun i => BitVec.ofNat 8 (i + 1))) }

/-- The good split commands: state, opcode, target and table. -/
def goodSplits : List (Nat × Nat × Nat × List Bytes) :=
  [(1, 0x1002, 0, [loadPart, loadPart]), (1, 0x1003, 0, [loadPart]), (1, 0x1008, 0, [updatePart]), (1, 0x1007, 1, [nearPart]),
   (3, 0x1007, 0, [corePart]), (3, 0x1004, 0, [streamPart])]

/-- The table that a split command reads. -/
def tableOf (s : State) (n : Nat) : List Bytes := (List.range n).map (fun i => s.hostRead (0x5000 + 32 * i) 32)

/-- A RESEND_PARTS of a mask at a ring that keeps a LOAD_TENSOR with a failed part 1. -/
def resending (mask : Nat) : State :=
  let b := entryOf 0x100B 0 [(16, 4, 7), (24, 8, mask)]
  let s := given (formed (fun x => { x with state := 1 })) 0 b
  let l : List Part := [{ Part.fresh loadPart with done := some 0 }, { Part.fresh loadPart with done := some 12 }]
  { s with rings := [(0, { s.ring 0 with partials := [⟨7, 7, 0x1002, splitEntry 0x1002 2 0, l⟩] })] }

theorem witness_splitCommands :
    (∀ p ∈ goodSplits, (splitting p.1 p.2.1 p.2.2.2.length p.2.2.1 p.2.2.2).starts 0 p.2.1 (cmdOf (splitEntry p.2.1 p.2.2.2.length p.2.2.1))) ∧
    (∀ p ∈ goodSplits, (splitting p.1 p.2.1 65 p.2.2.1 p.2.2.2).starts 0 p.2.1 (cmdOf (splitEntry p.2.1 65 p.2.2.1))) ∧
    (∀ m ∈ [0, 1, 2, 4], (resending m).starts 0 0x100B (cmdOf (entryOf 0x100B 0 [(16, 4, 7), (24, 8, m)]))) ∧
    (∀ p ∈ goodSplits, (splitting p.1 p.2.1 p.2.2.2.length p.2.2.1 p.2.2.2).hostAdmits 0 0x5000 (32 * p.2.2.2.length) 0 = true) ∧
    (∀ p ∈ goodSplits, badParts p.2.1 p.2.2.1 (tableOf (splitting p.1 p.2.1 p.2.2.2.length p.2.2.1 p.2.2.2) p.2.2.2.length) = none) ∧
    (∀ p ∈ goodSplits, (p.1 = 3 → p.2.1 = 0x1004) → badParts p.2.1 p.2.2.1 [partOf [(0, 8, 2 ^ 63 + 31), (8, 8, 2 ^ 60)]] ≠ none) ∧
    (splitting 3 0x1004 1 0 [streamPart]).portRefuses 0 3 = none ∧ (splitting 3 0x1004 1 0 [streamPart]).portRefuses 0 0 ≠ none ∧
    routeOk (bytesAt streamPart 16 8) = true ∧ 0 < bytesAt corePart 16 8 ∧ bytesAt corePart 1 1 = 0 ∧
    ((resending 2).ring 0).partialOf 7 ≠ none ∧ ((resending 2).ring 0).partialOf 8 = none := by
  refine ⟨fun p h => starts_of ?_, fun p h => starts_of ?_, fun m h => starts_of ?_, by decide +kernel⟩
  · revert p
    decide +kernel
  · revert p
    decide +kernel
  · revert m
    decide +kernel

/-- Split commands stay outstanding with their parts; STREAM_LAYER asks for its slots (R319, R371). -/
theorem test_split_commands :
    ((after (.loadTensor 0) (splitting 1 0x1002 2 0 [loadPart, loadPart])).ring 0).cmds.map (·.parts.length) = [2] ∧
    ((after (.readTensor 0) (splitting 1 0x1003 1 0 [loadPart])).ring 0).cmds.map (·.parts.length) = [1] ∧
    ((after (.updateCommand 0) (splitting 1 0x1008 1 0 [updatePart])).ring 0).cmds.map (·.parts.length) = [1] ∧
    ((after (.accumulateOut 0) (splitting 3 0x1007 1 0 [corePart])).ring 0).cmds.map (·.parts.length) = [1] ∧
    status (after (.loadTensor 0) (splitting 1 0x1002 0 0 [])) = 3 := by decide +kernel
theorem test_stream_layer : let x := (after (.streamLayer 0) (splitting 3 0x1004 1 0 [streamPart])).fport 3
    x.waiting.map (fun w => (w.frame.typ, w.frame.req, bytesAt w.frame.bodyBytes 0 8, bytesAt w.frame.bodyBytes 8 4)) = [(2, 40, 0x1234, 16)] ∧
    x.txns.map (fun t => (t.req, t.total)) = [(40, 16)] := by decide +kernel
theorem test_resend_parts : ((after (.resendParts 0) (resending 2)).ring 0).cmds.map (fun c => c.parts.map (·.done)) = [[some 0, none]] ∧
    status (after (.resendParts 0) (resending 1)) = 3 := by decide +kernel

/-- Forme 0 with one outstanding split command of those parts on ring 0, before station 0. -/
def working (op target : Nat) (tab : List Bytes) (x : Station) : State :=
  { splitting 3 op tab.length target tab with
    rings := [(0, { active with fetched := 1, tail := 1, cmds := [{ cmdOf (splitEntry op tab.length target) with parts := tab.map Part.fresh }] })]
    stations := [(0, x)] }

/-- The work of parts at stations: opcode, target and part. -/
def partWork : List (Nat × Nat × Bytes) := [(0x1002, 0, loadPart), (0x1003, 0, loadPart), (0x1008, 0, updatePart), (0x1007, 1, nearPart)]

theorem witness_partsAtStations :
    stored.sound ∧ (∀ p ∈ partWork, ((working p.1 p.2.1 [p.2.2, p.2.2] stored).ring 0).cmd 0
      = some { cmdOf (splitEntry p.1 2 p.2.1) with parts := [Part.fresh p.2.2, Part.fresh p.2.2] }) ∧
    (∀ p ∈ partWork, (cmdOf (splitEntry p.1 2 p.2.1)).usesPorts = false ∧ (working p.1 p.2.1 [p.2.2, p.2.2] stored).ringLink 0 = true ∧
      (working p.1 p.2.1 [p.2.2, p.2.2] stored).partTurn (cmdOf (splitEntry p.1 2 p.2.1)) (Part.fresh p.2.2) = true ∧
      (working p.1 p.2.1 [p.2.2, p.2.2] stored).proofFull = false ∧ (Part.fresh p.2.2).sentAll = false) ∧
    ({ working 0x1002 0 [loadPart] stored with bays := [(0, { Bay.init with width := 0 })] } : State).ringLink 0 = false ∧
    (working 0x1002 0 [loadPart] stored).hostAdmits 0 0x8000 32 0 = true ∧ (working 0x1002 0 [loadPart] stored).hostAdmits 0 (2 ^ 60) 32 0 = false ∧
    (working 0x1002 0 [loadPart] stored).access 0 0 [⟨0x1000, 32, 1⟩] = 0 ∧ (working 0x1003 0 [loadPart] stored).hostAdmits 0 0x8000 32 1 = true ∧
    (working 0x1003 0 [loadPart] stored).access 0 0 [⟨0x1000, 32, 0⟩] = 0 ∧
    stored.comb = [] ∧ (working 0x1007 1 [nearPart] stored).access 0 0 [⟨0x180000000, 32, 2⟩] = 0 ∧ stored.replay = none :=
  ⟨sound_of (by decide +kernel), by decide +kernel⟩

/-- LOAD_TENSOR and READ_TENSOR move their bytes, and the last part completes the command (R319, R321). -/
theorem test_part_completion :
    (let s := after (.partCompletion 0 0 0 []) (working 0x1002 0 [loadPart] stored)
     (s.station 0).mem.readN 0x1000 2 = [1, 2] ∧ (s.station 0).mem.read 0x101F = 32 ∧ status s = 0 ∧ (s.ring 0).cmds = []) ∧
    (let s := after (.partCompletion 0 0 0 []) (working 0x1003 0 [loadPart] { stored with mem := memOf 0x1000 [9, 8, 7] })
     s.hostRead 0x8000 4 = [9, 8, 7, 0]) ∧
    ((after (.partCompletion 0 0 0 []) (working 0x1007 1 [nearPart] { stored with mem := [] })).station 0).mem.read 0x180000000 ≠ 0 := by
  decide +kernel

/-- A CONTEXT_ALLOC or CONTEXT_FREE on ring 0 before station 0. -/
def contexting (b : Bytes) : State := { given (formed (fun x => { x with state := 1 })) 0 b with stations := [(0, contexts)] }

theorem witness_contextCommands :
    (∀ p ∈ [(0x1009, entryOf 0x1009 0 [(16, 8, 0x40000), (24, 8, 0x1000)]), (0x100A, entryOf 0x100A 0 [(16, 4, handle)])],
      (contexting p.2).starts 0 p.1 (cmdOf p.2)) ∧
    (contexting []).phys.stacked = true ∧ (contexting []).stationPresent 0 = true ∧ (contexting []).nearTesting 0 = false ∧
    (contexting []).nearAdmits 0 0x40000 0x1000 1 = true ∧ (contexting []).nearAdmits 0 live.base live.length 1 = true ∧
    (∀ e ∈ contexts.ctx, e.2.live = true → e.2.base + e.2.length ≤ 0x40000 ∨ 0x41000 ≤ e.2.base) ∧
    (∀ j < 3, (Map.get Ctx.init contexts.ctx j).live = true) ∧ (Map.get Ctx.init contexts.ctx 3).live = false ∧
    bits handle 18 10 = 0 ∧ bits handle 9 0 = 2 ∧ bits handle 31 19 = live.generation % 2 ^ 13 ∧ contexts.busy1 = false ∧
    ({ contexts with q1 := [request 9 0 0 0 handle []] } : Station).busy1 = true := by
  refine ⟨fun p h => starts_of ?_, by decide +kernel⟩
  revert p
  decide +kernel

/-- CONTEXT_ALLOC gives the handle of the lowest free entry; CONTEXT_FREE takes a LIVE one (R337, R338). -/
theorem test_context_commands :
    (after (.contextAlloc 0) (contexting (entryOf 0x1009 0 [(16, 8, 0x40000), (24, 8, 0x1000)]))).hostNat 0x20018 8 = ctxHandle 0 3 0 ∧
    ((Map.get Ctx.init ((after (.contextFree 0) (contexting (entryOf 0x100A 0 [(16, 4, handle)]))).station 0).ctx 2).live) = false := by
  decide +kernel

/-! ### Feeder ports -/

/-- A request of core 0 to its port: operation, address, length, argument and slots. -/
def portRequest (op addr len arg : Nat) (slots : List Slot) : Msg :=
  { request op 0 addr len arg slots with typ := MT.portOp, vc := 0, dkind := 3 }

/-- Port 3 UP and bound to forme 0. -/
def upPort : FPort := { FPort.init with link := 3, bound := some ⟨0, 7, 11⟩, reqNext := 40, gotShared := 24576, peerMax := 256 }

/-- The ready module with port 3 as given. -/
def atPort (x : FPort) : State := { ready with fports := [(3, x)] }

/-- A good request of each operation. -/
def portRequests : List (Nat × Msg) :=
  [(1, portRequest 1 0x1000 7 0 []), (2, portRequest 2 0x1000 1 0 [words [7]]), (3, portRequest 3 0x10 1 5 [words [7]])]

/-- An open frame that a request joins. -/
def openOf (grad : Bool) : OpenFrame :=
  { grad := grad, forme := 0, session := 7, bucket := if grad then 5 else 0, step := 0, fmt := 0, contributor := if grad then 11 else 0,
    copy := 0, start := if grad then 0xF else 0xFE0, slots := [words [3]], replies := [(portRequest 2 0xFE0 1 0 [words [3]]).reply], parts := [] }

/-- A WRITE frame of one slot that waits for credit. -/
def waitingFrame : TxFrame := { frame := mkFrame 4 7 40 [] [words [3]] true, txn := 40 }

theorem witness_portRequests :
    (∀ p ∈ portRequests, (atPort { upPort with ops := [p.2] }).portServes 3 p.1 p.2 ⟨0, 7, 11⟩) ∧
    (∀ p ∈ portRequests, portOpOk { p.2 with len := 8 } = false ∧ upPort.ops.find? (fun m => m.typ == MT.portOp) = none ∧
      p.2.forme = 0 ∧ (⟨1, 7, 0⟩ : Binding).forme ≠ p.2.forme) ∧
    (openOf false).joins { openOf false with start := 0x1000, slots := [words [7]] } upPort.room = true ∧
    (openOf true).joins { openOf true with start := 0x10, slots := [words [7]] } upPort.room = true ∧
    (atPort upPort).portParts 3 = [] ∧ ready.stereoOf 0 5 ⟨0, 7, 11⟩ = (11, 0) ∧ upPort.covers waitingFrame.frame = true ∧
    ({ upPort with gotRes := [(frameClass 4, 0)], gotShared := 0 } : FPort).covers waitingFrame.frame = false ∧ waitingFrame.frame.psn = false ∧
    upPort.retryBytes + 32 + 36 * waitingFrame.frame.nslots ≤ 2 ^ 20 ∧ upPort.inbox = [] ∧ (words [7] :: []).length < upPort.room ∧ (∀ t ∈ upPort.txns, t.kind ≠ 1) := by
  refine ⟨fun p h => ?_, by decide +kernel⟩
  unfold State.portServes
  revert p
  decide +kernel

/-- READ asks at once, WRITE opens a frame, its timeout closes it, and it is sent under the next number (R369, R374). -/
theorem test_port_requests :
    (let x := (after (.portRead 3) (atPort { upPort with ops := [portRequest 1 0x1000 7 0 []] })).fport 3
     x.waiting.map (fun w => (w.frame.typ, w.frame.req)) = [(2, 40)] ∧ x.reqNext = 41) ∧
    (let s := after (.portWrite 3) (atPort { upPort with ops := [portRequest 2 0x1000 1 0 [words [7]]] })
     let t := after (.frameCloseTimeout 3 false) s
     let x := (after (.frameTransmit 3) t).fport 3
     (s.fport 3).openWrite.map (·.start) = some 0x1000 ∧ (t.fport 3).waiting.length = 1 ∧ x.txNext = 1 ∧ x.sent.map (·.frame.seq) = [0]) ∧
    ((after (.gradOp 3) (atPort { upPort with ops := [portRequest 3 0x10 1 5 [words [7]]], openGrad := some (openOf true) })).fport 3).openGrad.map
      (·.slots.length) = some 2 := by decide +kernel

/-- A frame as port 3 receives it from a sender. -/
def received (f : Frame) : RxFrame :=
  { fecCorr := 2, fecUncorr := 1, ethertype := 0x88B5, vlan := false, bytes := 64, fcsOk := true, dst := ready.portMac 3, src := 5, frame := f }

/-- A transaction of port 3: its number, kind and slots. -/
def txnOf (req kind total : Nat) : Txn :=
  { req := req, kind := kind, forme := 0, replies := [(portRequest 1 0x1000 1 0 []).reply], part := none, parts := [], next := 0, total := total,
    route := 2 ^ 63 + 5 * 2 ^ 36, got := [], seq := some 8, cancelled := false, refused := none }

/-- Port 3 UP with transactions; the ready module with that port and an outstanding STREAM_LAYER of two slots on ring 0. -/
def portWith (l : List Txn) : FPort := { upPort with txns := l, rxNext := 4 }
def streaming (x : FPort) : State :=
  { atPort x with rings := [(0, { active with fetched := 1, tail := 1, cmds := [{ cmdOf (splitEntry 0x1004 1 0) with parts := [Part.fresh streamPart] }] })] }

/-- The stream's transaction. -/
def streamTxn (next : Nat) : Txn := { txnOf 40 1 2 with replies := [], part := some ⟨0, 0, 0⟩, next := next, got := List.replicate next (words [1]) }

/-- Sequenced frames for the port: WEIGHT_DATA, READ_RSP, SYNC, CANCEL, POISON_NOTICE. -/
def weightFrame (first : Nat) : Frame := { mkFrame 1 7 40 (le first 4 ++ zeros 8 ++ le (2 ^ 63 + 5 * 2 ^ 36) 8) [words [1]] true with seq := 4 }
def readFrame : Frame := { mkFrame 3 7 40 (le 0x1000 8) [words [1]] true with seq := 4 }
def syncFrame (epoch : Nat) : Frame := { mkFrame 6 7 0 (le (128 + 3) 1 ++ zeros 3 ++ le epoch 4) [] true with seq := 4 }
def cancelFrame (flags : Nat) : Frame := { mkFrame 7 7 0 (le 40 2 ++ le 41 2 ++ le flags 1) [] true with seq := 4 }
def noticeFrame : Frame := { mkFrame 12 7 0 [] [] true with seq := 4 }

/-- An unsequenced frame of a type with a body and an acknowledgement. -/
def plainFrame (typ ack : Nat) (body : Bytes) : Frame := { mkFrame typ 0 0 body [] true with ack := ack }

/-- A sent frame that waits for its acknowledgement. -/
def unacked : TxFrame := { waitingFrame with frame := { waitingFrame.frame with seq := 8 } }

/-- The module whose forme 0 has its tree 3 at port 3 with epoch 6 outstanding. -/
def syncing : State :=
  { atPort (portWith []) with formes := [(0, { ready.forme 0 with trees := [(3, { Tree.init with external := true, port := 3, sync := some 6, arrived := [0] })] })] }

/-- The check that a frame of a type arrives in order at a settled port. -/
def orderedNow (s : State) (f : Frame) (typ : Nat) : Bool :=
  decide ((s.fport 3).link = 3 ∧ 790 ≤ s.portMHz 3) && s.macOk 3 (received f) && decide (f.ver = 1) && decide (f.typ = typ) && decide (f.seq = (s.fport 3).rxNext)
    && decide (f.seq < 65536) && decide ((s.fport 3).retry = [] ∧ (s.fport 3).pendAcks = [] ∧ ∀ t ∈ (s.fport 3).txns, t.kind ≠ 2 ∧ t.kind ≠ 3)
    && decide ((s.fport 3).inbox = [])

theorem ordered_of {s : State} {f : Frame} {typ : Nat} (h : orderedNow s f typ = true) :
    s.framed 3 (received f) typ ∧ f.seq = (s.fport 3).rxNext ∧ f.seq < 65536 ∧ (s.fport 3).settled ∧
      (s.fport 3).inbox = [] := by
  simp only [orderedNow, Bool.and_eq_true, decide_eq_true_eq] at h
  obtain ⟨⟨⟨⟨⟨⟨⟨up, mac⟩, ver⟩, kind⟩, seq⟩, small⟩, settled⟩, empty⟩ := h
  exact ⟨⟨up.1, up.2, mac, ver, kind⟩, seq, small, settled, empty⟩

theorem streaming_live (next : Nat) : (streaming (portWith [streamTxn next])).streamsLive 3 := by
  intro t ht _
  have e : t = streamTxn next := List.mem_singleton.mp ht
  subst e
  exact Or.inr ⟨⟨0, 0, 0⟩, Part.fresh streamPart, rfl, by rfl, rfl⟩

/-- Every sequenced type arrives in order where its clauses ask it to. -/
theorem witness_wspFrames_sequenced :
    (∀ n ∈ [0, 1], orderedNow (streaming (portWith [streamTxn n])) (weightFrame n) 1 = true ∧ (weightFrame n).rsvOk [(4, 8)] = true ∧
      bytesAt (weightFrame n).bodyBytes 0 4 = n ∧ routeOk (bytesAt (weightFrame n).bodyBytes 12 8) = true ∧
      (portWith [streamTxn n]).txn 40 = some (streamTxn n) ∧ (portWith [streamTxn n]).isCancelled 40 = false) ∧
    (streaming (portWith [])).part ⟨0, 0, 0⟩ = some (Part.fresh streamPart) ∧ (ready.field (portField 3)).dark = false ∧
    orderedNow (atPort (portWith [txnOf 40 0 1])) readFrame 3 = true ∧ readFrame.rsvOk [(8, 12)] = true ∧
    (portWith [txnOf 40 0 1]).txn 40 = some (txnOf 40 0 1) ∧
    (∀ e ∈ [6, 7], orderedNow syncing (syncFrame e) 6 = true ∧ (syncFrame e).rsvOk [(1, 3), (12, 8)] = true ∧
      bits (bytesAt (syncFrame e).bodyBytes 0 1) 6 5 = 0 ∧ bytesAt (syncFrame e).bodyBytes 4 4 = e) ∧ (syncing.tree 0 3).sync = some 6 ∧
    (∀ n < 4, orderedNow (atPort (portWith [txnOf 40 0 1])) (cancelFrame n) 7 = true ∧ (cancelFrame n).rsvOk [(6, 14)] = true ∧
      bytesAt (cancelFrame n).bodyBytes 4 1 = n) ∧
    orderedNow (atPort (portWith [])) noticeFrame 12 = true ∧ noticeFrame.rsvOk [(6, 14)] = true ∧
    (∀ f ∈ [weightFrame 0, readFrame, syncFrame 6, cancelFrame 0, noticeFrame], { f with seq := 5 }.seq ≠ (portWith []).rxNext ∧
      (atPort (portWith [])).macOk 3 (received { f with seq := 5 }) = true) ∧
    (∀ l ∈ [[], [txnOf 40 0 1]], let f : Frame := { readFrame with frsv := 1 }
      orderedNow (atPort (portWith l)) f 3 = true ∧ f.frsv ≠ 0 ∧ (portWith l).named f = l) ∧
    (atPort (portWith [])).portRoom 3 (streamMsg 3 0 (2 ^ 63 + 5 * 2 ^ 36) [words [1]]) = true ∧
    ({ portWith [] with nakFor := some 4 } : FPort).nakFor = some 4 ∧ (portWith []).nakFor ≠ some 4 := by decide +kernel

/-- CREDIT, ACK, NAK and HELLO arrive where their clauses ask it. -/
theorem witness_wspFrames_unsequenced :
    (∀ f ∈ [plainFrame 8 8 (zeros 20), plainFrame 9 8 (le 3 2), plainFrame 10 7 (le 8 2)],
      (atPort { portWith [txnOf 40 2 1] with retry := [unacked] }).macOk 3 (received f) = true ∧ f.ver = 1) ∧
    ackCovers 8 unacked.frame.seq = true ∧ ackCovers ((4 + 65535) % 65536) 3 = true ∧ (portWith []).inflight = none ∧
    (∀ e ∈ [none, some 9, some 10], let x : FPort := { portWith [] with link := 2, peerEpoch := e }
      (atPort x).macOk 3 (received (plainFrame 11 0 (le 9 4 ++ zeros 2 ++ le 256 2 ++ le 24576 4 ++ le 1 1))) = true ∧ (∀ t ∈ x.txns, t.kind ≠ 4)) := by
  decide +kernel

/-- WEIGHT_DATA ends its part with its last slot; a frame out of order gives one NAK (R359, R373). -/
theorem test_weight_data :
    (((after (.weightData 3 (received (weightFrame 0))) (streaming (portWith [streamTxn 0]))).fport 3).txns.map (·.next) = [1]) ∧
    (let s := after (.weightData 3 (received (weightFrame 1))) (streaming (portWith [streamTxn 1]))
     (s.fport 3).txns = [] ∧ status s = 0) ∧
    (let x := (after (.readRsp 3 (received { readFrame with seq := 5 })) (atPort (portWith []))).fport 3
     x.nakFor = some 4 ∧ x.sent.map (·.frame.typ) = [10]) := by decide +kernel
/-- SYNC with RELEASE of the outstanding epoch releases the tree (R377); CANCEL answers (R379); ACK and NAK work on the retry buffer (R360). -/
theorem test_wsp_frames :
    ((after (.sync 3 (received (syncFrame 6))) syncing).tree 0 3).releases = 1 ∧
    ((after (.sync 3 (received (syncFrame 7))) syncing).fport 3).protoErr = 1 ∧
    ((after (.cancel 3 (received (cancelFrame 0))) (atPort (portWith [txnOf 40 0 1]))).fport 3).waiting.map (·.frame.typ) = [7] ∧
    (let x : FPort := { portWith [txnOf 40 2 1] with retry := [unacked], txNext := 9 }
     ((after (.ack 3 (received (plainFrame 9 8 (le 3 2)))) (atPort x)).fport 3).retry = [] ∧
     ((after (.nak 3 (received (plainFrame 10 7 (le 8 2)))) (atPort x)).fport 3).sent.map (·.frame.seq) = [8]) := by decide +kernel
theorem test_credit_hello :
    (let x := (after (.wspCredit 3 (received (plainFrame 8 0 (le 7 4 ++ zeros 12 ++ le 99 4)))) (atPort (portWith []))).fport 3
     x.gotShared = 99 ∧ Map.get 1024 x.gotRes 0 = 7) ∧
    (let x := (after (.hello 3 (received (plainFrame 11 0 (le 9 4 ++ zeros 2 ++ le 256 2 ++ le 24576 4 ++ le 1 1))))
      (atPort { portWith [] with link := 2 })).fport 3
     x.link = 3 ∧ x.peerEpoch = some 9 ∧ x.peerMac = 5) := by decide +kernel

/-- A state whose reference pin is qualified. -/
def referenced (s : State) : State := { s with clocks := { s.clocks with pinQualified := true } }

theorem witness_wspTimers :
    (∀ l ∈ [0, 1, 2, 3, 4], ((atPort { upPort with link := l }).fport 3).link = l) ∧ ({ upPort with owed := true } : FPort).owed = true ∧
    upPort.owed = false ∧ (∀ n ∈ [7, 8], ({ upPort with retry := [unacked], resends := n } : FPort).retry = [unacked]) ∧ upPort.retry = [] ∧
    ready.proofFull = false ∧ upPort.seated = false ∧ ({ upPort with seated := true } : FPort).seated = true ∧ ready.portPresent 3 = true ∧
    State.reset.portPresent 3 = false ∧ ready.mgmt.started = true ∧ upPort.inbox = [] ∧ (referenced ready).clocks.pinQualified = true ∧
    ({ upPort with hold := true, link := 4 } : FPort).hold = true ∧ upPort.hold = false := by decide +kernel

/-- The timers of a port (R349, R359, R360, R364). -/
theorem test_timers :
    ((after (.helloTimer 3) (atPort { upPort with link := 2, fresh := false, epoch := 3 })).fport 3).sent.map
      (fun f => (f.frame.typ, bytesAt f.frame.bodyBytes 0 4)) = [(11, 3)] ∧
    ((after (.ackTimer 3) (atPort { upPort with owed := true })).fport 3).sent.map (·.frame.typ) = [9] ∧
    ((after (.retransmitTimeout 3) (atPort { upPort with retry := [unacked], resends := 8 })).fport 3).link = 4 ∧
    ((after (.creditRepeat 3) (atPort upPort)).fport 3).sent.map (fun f => bytesAt f.frame.bodyBytes 16 4) = [24576] := by decide +kernel
theorem test_port_links :
    ((after (.holdExpiry 3) (atPort { upPort with link := 4, hold := true, txNext := 9 })).fport 3).txNext = 0 ∧
    ((after (.pcsAligned 3) (referenced (atPort { upPort with link := 1, fresh := false }))).fport 3).link = 2 ∧
    ((after (.pcsAlignmentLost 3) (atPort upPort)).fport 3).link = 4 ∧
    ((after (.moduleInsert 3 true 28) (atPort FPort.init)).fport 3).link = 1 ∧ ((after (.moduleInsert 3 true 29) (atPort FPort.init)).fport 3).accepted = false ∧
    ((after (.moduleRemove 3) (atPort upPort)).fport 3).link = 0 ∧ ((after (.trainingTimeout 3) (atPort upPort)).fport 3).link = 3 := by
  decide +kernel

/-! ### Host bays -/

/-- A request of core 0 to its bay. -/
def hostRequest (op addr len arg : Nat) (slots : List Slot) : Msg := { request op 0 addr len arg slots with typ := MT.hostOp, vc := 0, dkind := 4 }

/-- Bay 0 as given, with the report ring in a state and some host memory. -/
def atBay (x : Bay) (st : Nat) : State :=
  { ready with bays := [(0, x)], rings := [(73, { active with state := st })], hostMem := memOf 0x8000 ((List.range 32).map (fun i => BitVec.ofNat 8 (i + 1))) }

/-- A bay of full width with one request. -/
def bayWith (l : List Msg) : Bay := { Bay.init with die := true, width := 3, ops := l }

/-- A good request of each operation, and one outside the windows. -/
def hostRequests : List (Nat × Msg) :=
  [(1, hostRequest 1 0x8000 1 0 []), (2, hostRequest 2 0x8000 1 0 [words [7]]), (3, hostRequest 3 0 1 1 [words [7]]),
   (3, hostRequest 3 0 1 0 [words [7]]), (1, hostRequest 1 0x8000 1 0xFFFF []), (2, hostRequest 2 0x8000 1 0xFFFF [words [7]])]

/-- A report record of core 0's port 3 that holds `n` slots already. -/
def assembly (n : Nat) : Assembly := { core := 0, port := 3, forme := 0, slots := List.replicate n (words [3]) }

theorem witness_hostBays :
    (∀ p ∈ hostRequests, (atBay (bayWith [p.2]) 1).bayServes 0 p.1 p.2) ∧ (atBay (bayWith []) 1).proofFull = false ∧
    (atBay (bayWith []) 1).hostAdmits 0 0x8000 32 0 = true ∧ (atBay (bayWith []) 1).hostAdmits 0 0x8000 32 1 = true ∧
    (∀ r < 2, (atBay (bayWith []) 1).hostAdmits 0 (hostAddr (hostRequest 1 0x8000 1 0xFFFF []).desc) 32 r = false) ∧
    (∀ p ∈ hostRequests, bayOpOk { p.2 with len := 8 } = false) ∧ (bayWith []).asms.length < 256 ∧
    (∀ n ∈ [62, 63], (assembly n).isFor (hostRequest 3 0 1 1 [words [7]]) = true) ∧ ((atBay (bayWith []) 1).ring 73).state = 1 ∧
    ((atBay (bayWith []) 0).ring 73).state ≠ 1 ∧ (bayWith []).width ≠ 0 ∧ ({ bayWith [] with width := 0 } : Bay).width = 0 ∧
    ready.power.resetLow = false ∧ (∀ p ∈ hostRequests, (atBay (bayWith [p.2]) 1).NoneEnded) ∧ (atBay (bayWith []) 1).bayNext 0 = none := by
  refine ⟨fun p h => ?_, by decide +kernel⟩
  unfold State.bayServes
  revert p
  decide +kernel

/-- READ, WRITE and REPORT at a bay, and its link (R391, R448, R450). -/
theorem test_host_bays :
    (let s := after (.hostRead 0 []) (atBay (bayWith [hostRequest 1 0x8000 1 0 []]) 1)
     ((s.router 0).inq.flatMap (·.2)).map (fun b => bytesAt (b.msg.slots.headD zeroSlot).bytes 0 2) = [0x0201]) ∧
    (after (.hostWrite 0) (atBay (bayWith [hostRequest 2 0x8000 1 0 [words [0x11223344]]]) 1)).hostNat 0x8000 4 = 0x11223344 ∧
    answerCode (after (.hostWrite 0) (atBay (bayWith [hostRequest 2 0x8000 1 0xFFFF [words [7]]]) 1)) = [12] := by decide +kernel
theorem test_report :
    ((after (.reportOp 0) (atBay (bayWith [hostRequest 3 0 1 1 [words [7]]]) 1)).bay 0).asms.map (·.slots.length) = [1] ∧
    (after (.reportOp 0) (atBay { bayWith [hostRequest 3 0 1 0 [words [7]]] with asms := [assembly 2] } 1)).reports.map (·.slots.length) = [3] ∧
    answerCode (after (.reportOp 0) (atBay { bayWith [hostRequest 3 0 1 0 [words [7]]] with asms := [assembly 63] } 1)) = [3] := by decide +kernel
theorem test_host_link : ((after (.hostLinkDown 0) (atBay (bayWith []) 1)).bay 0).width = 0 ∧
    ((after (.hostLinkRetrain 0 2) (atBay { bayWith [] with width := 0 } 0)).bay 0).width = 2 := by decide +kernel

/-! ### BAR0 -/

/-- A BAR0 access by bay 0. -/
def access (off size value : Nat) : Bar0 := { bay := 0, read := false, off := off, size := size, value := value }

/-- The module with ring 0 as given. -/
def ringed (g : Ring) : State := { ready with rings := [(0, g)] }

/-- A module that waits for its host. -/
def awaiting : State := { State.reset with regs := { Regs.init with devState := 1, step := 1 } }

/-- A ring whose set-up is good. -/
def setUp : Ring := { active with cfg := 0, state := 0 }

/-- Host memory whose doorbell line holds two zero indices, before ring 0 as given. -/
def enabling (g : Ring) (cfg : Nat) : State :=
  let s := ringed g
  ({ s with hostMem := memOf 0x40000 (zeros 8) } : State).updRing 0 (fun g => { g with cfg := BitVec.ofNat 32 cfg &&& 0x2FF00 })

theorem witness_registerWrites :
    ready.barReaches (access 0x7000 4 0) = true ∧ ({ ready with bays := [] } : State).barReaches (access 0x7000 4 0) = false ∧
    ready.barAborts (access 0x7002 4 0) = true ∧ ready.barAborts (access 0x7000 2 0) = true ∧
    (∀ o ∈ [0x1000, 0x3000 + 32, 0x3000 + 64 * 71 + 32, 0x3000 + 36, 0x6000, 0x6004, 0x7010, 0x7000, 0x7004, 0x2008],
      ready.barAborts (access o 4 (2 ^ 32 - 1)) = false) ∧
    (∀ o ∈ [0x2000, 0x3000, 0x3000 + 64 * 71 + 24], ready.barAborts (access o 8 (2 ^ 64 - 1)) = false) ∧
    ready.regs.devState ≠ 0 ∧ State.reset.regs.devState = 0 ∧ State.reset.barReaches (access 0x1000 4 0) = true ∧
    ((ringed setUp).ring 0).cfg.getLsbD 0 = false ∧ ((ringed setUp).ring 0).state = 0 ∧ (enabling setUp 1).enableRing 0 = none ∧
    (enabling { setUp with sbase := 64 } 1).enableRing 0 = some 3 ∧ ((ringed active).ring 0).cfg.getLsbD 0 = true ∧
    (0 : Word) &&& 0x2FF00 = ((ringed active).ring 0).cfg &&& 0x2FF00 ∧ ready.enable.isSome = true ∧
    (∀ v ∈ [20, 150 - 128 + 128], 20 ≤ v % 128) ∧ ready.operating = true ∧ awaiting.regs.devState = 1 ∧
    awaiting.barReaches (access 0x2000 8 0) = true ∧ ready.busRatioBroken = false ∧ awaiting.busRatioBroken = false ∧
    ({ access 0x7000 4 0 with read := true } : Bar0).read = true ∧ (ringed active).NoneEnded := by decide +kernel

theorem witness_registerWrites_noFence : (ringed active).noFence := by
  decide

/-- EN starts a ring and clearing it stops one; RING_IRQ, POWER_CAP, STATUS_RESET and the flags (R402, R403, R406-R408). -/
theorem test_ring_registers :
    ((after (.ringEnable (access 0x3020 4 1)) { ringed setUp with hostMem := memOf 0x40000 (zeros 8) }).ring 0).state = 1 ∧
    ((after (.ringEnable (access 0x3020 4 1)) (ringed { setUp with sbase := 64 })).ring 0).err = 3 ∧
    ((after (.ringDisable (access 0x3020 4 0)) (ringed active)).ring 0).state = 0 ∧
    ((after (.ringIrqWrite (access 0x3024 4 0x12345)) (ringed active)).ring 0).irq = 0x12345 := by decide +kernel
theorem test_registers :
    (after (.containmentDefaultWrite (access 0x6000 4 1)) ready).regs.resetDefault = true ∧
    (after (.powerCapWrite (access 0x6004 4 100)) ready).regs.powerCap = 100 ∧ (after (.powerCapWrite (access 0x6004 4 19)) ready).regs.powerCap = 30 ∧
    (after (.statusResetWrite (access 0x7010 4 0x52455345)) ready).regs.devState = 0 ∧
    (after (.w1cFlagWrite (access 0x7000 4 0xF0)) { ready with regs := { ready.regs with flags := 0xFF } }).regs.flags = 0x0F ∧
    (after (.registerWrite (access 0x3008 8 0xABC000)) (ringed setUp)).rings.map (·.2.cbase) = [0xABC000] ∧
    (after (.helperClkEnWrite (access 0x1000 4 0)) { ready with regs := { ready.regs with helperPresent := 0x7FFF, helperLock := 0x79FF } }).regs.helperEn
      = 0x79FF := by decide +kernel

/-! ### Power, heat and clocks -/

/-- A measurement of field 0 whose cluster 0 reads a temperature. -/
def reads (power : Nat) (hot : Int) : FieldMeas := { power := power, temps := [(0, hot, 0)] }

/-- Field 0 as given, its helper on. -/
def ofField (x : Field) : State := { ready with fields := [(0, x)] }

/-- The hottest reading of field 0 after a measurement. -/
def hotOf (hot : Int) : Int := ((ready.readSensors 0 (reads 10 hot)).cluster ((ready.readSensors 0 (reads 10 hot)).hottest 0)).hot

theorem witness_governors :
    ready.awake = true ∧ ready.fieldEnabled 0 = true ∧ ready.helperOn 5 = true ∧ State.reset.helperOn 5 = false ∧
    hotOf ((heatLimits true).trip) = (heatLimits true).trip ∧ hotOf ((heatLimits true).dark) = (heatLimits true).dark ∧
    hotOf ((heatLimits true).trip - 1) = (heatLimits true).trip - 1 ∧ hotOf ((heatLimits true).throttle) = (heatLimits true).throttle ∧
    hotOf ((heatLimits true).dark - 1) = (heatLimits true).dark - 1 ∧ hotOf ((heatLimits true).warn - 33) = (heatLimits true).warn - 33 ∧
    ¬ (ready.regs.devState = 6 ∧ ready.power.heatTrip = true) ∧ ready.NoPending ∧ ready.fieldPresent 0 = true ∧ ready.capInForce = 30 ∧ 0 ∈ ready.formesOn 0 ∧ (ready.forme 0).state = 3 ∧
    Field.init.dark = false ∧ Field.init.powered = false ∧ Field.init.pendingDark = false ∧ Field.init.hotEvals < 31 ∧ Field.init.throttled = false ∧
    (ready.field 0).powered = true ∧ ready.mayWait 0 = false ∧
    (formed (fun x => { x with layer := some 0 })).mayWait 0 = true ∧ (ready.cluster 0).soft = 0 ∧ ready.power.capHeld = false := by decide +kernel

/-- A field at its trip threshold trips the module (R475); the limits of a wait, a droop and a soft start (R482, R485). -/
theorem test_governors : let s := after (.fieldGovernorEvaluation 0 (reads 10 1520)) ready
    s.power.tripLatched = true ∧ s.regs.devState = 6 := by decide +kernel
theorem test_pending_dark :
    ((after (.pendingDarkLimit 0) (ofField { Field.init with powered := true, pendingDark := true, waitEvals := 256 })).field 0).dark = true ∧
    ((after (.droopTrip 0) ready).field 0).stretched = true ∧
    ((after (.droopEnd 0) (ofField { Field.init with stretched := true })).field 0).stretched = false ∧
    (after (.moduleGovernorUpdate { input := 500, asks := [] }) ready).regs.powerInput = 500 ∧
    ((after (.softStartInterval 0) { ready with clusters := [(0, { Cluster.init with soft := 8 })] }).cluster 0).soft = 0 := by decide +kernel

/-- Cluster 0 as given. -/
def ofCluster (x : Cluster) : State := { ready with clusters := [(0, x)] }

/-- A cluster that runs at ladder step 20 on its first input. -/
def turning : Cluster := { Cluster.init with locked := true, ladder := 20, qual0 := true }

theorem witness_clockLoops :
    turning.locked = true ∧ turning.ladder ≠ 0 ∧ turning.coasting = false ∧ turning.ladder < turning.target ∧
    ({ turning with thermStep := 10 } : Cluster).target < ({ turning with thermStep := 10 } : Cluster).ladder ∧
    ({ turning with ladder := 33 } : Cluster).ladder = ({ turning with ladder := 33 } : Cluster).target ∧
    ready.power.standby = true ∧ isCluster 0 = true ∧ ready.clocks.pinQualified = true ∧ ({ turning with qual1 := true } : Cluster).qual1 = true ∧
    turning.qual1 = false ∧ turning.qual0 = true ∧ turning.qualified = true ∧ Cluster.init.qualified = false ∧
    ({ turning with coasting := true } : Cluster).coasting = true ∧ (ofCluster { turning with ladder := 0 }).mayStart 0 = true ∧
    ready.regs.devState ≠ 2 ∧ (ofCluster turning).clusterHere 0 = true ∧ State.reset.clusterHere 0 = false ∧
    ((ofCluster turning).clusters.map (·.1)).Nodup ∧ (stationClusters 0).any (fun k => ((ofCluster turning).cluster k).coasting) = (ready.station 0).clockLow ∧
    (ofCluster turning).fed 0 0 = true ∧ (ofCluster turning).fed 0 1 = true ∧ (atPort upPort).fed 9 0 = false ∧
    (∀ j ∈ fieldClusters (clusterField 0), (((ofCluster turning).cluster j).qual0 = true → (ofCluster turning).fed j 0 = true) ∧
      (((ofCluster turning).cluster j).qual1 = true → (ofCluster turning).fed j 1 = true)) ∧
    (stationClusters 0).any (fun k => ((ofCluster { turning with coasting := true }).cluster k).coasting) ≠ (ready.station 0).clockLow := by
  decide +kernel

/-- The loops of the clocks (R457-R465). -/
theorem test_clock_loops :
    ((after (.clockSlewStep 0) (ofCluster turning)).cluster 0).ladder = 21 ∧
    ((after (.loopLockLoss 0) (ofCluster turning)).cluster 0).coasting = true ∧
    ((after (.loopLock 0) (ofCluster { turning with ladder := 0 })).cluster 0).ladder = 8 ∧
    ((after (.stationClockFloor 0) (ofCluster { turning with coasting := true })).station 0).clockLow = true := by decide +kernel
theorem test_reference :
    ((after (.inputLostQualification ⟨2, 0, 0⟩) (ofCluster turning)).cluster 0).ladder = 8 ∧
    ((after (.inputQualified ⟨2, 0, 1⟩) (ofCluster turning)).cluster 0).qual1 = true ∧
    ((after (.inputLostQualification ⟨0, 0, 0⟩) { ofCluster turning with fports := [(3, upPort)] }).fport 3).link = 4 := by decide +kernel

/-! ### Ageing, records and the management port -/

/-- The ready module whose plan gives cluster 0 a baseline and an index. -/
def aged (r0 : Nat) (index : Int) : State := { ready with plan := { Plan.init with clusters := [(0, { Lead.init with r0 := r0, index := index })] } }

theorem witness_ageingAndChain :
    (∀ i : Int, 2 * (i * 1000000 - 1000000 * (1000000 - 16 * 62500)).natAbs ≤ 1000000 → -500 ≤ i - 0 ∧ i - 0 ≤ 500) ∧
    (∀ i : Int, 2 * (i * 1000000 - 1000000 * (1000000 - 16 * 62000)).natAbs ≤ 1000000 → i - 0 < -500 ∨ 500 < i - 0) ∧
    ready.awake = true ∧ ready.measurable 0 = true ∧ (Map.get Lead.init (aged 0 0).plan.clusters 0).r0 = 0 ∧
    (Map.get Lead.init (aged 1000000 0).plan.clusters 0).r0 ≠ 0 ∧
    State.reset.mgmt.started = false ∧ ready.mgmt.started = true ∧ ready.mgmt.checkPending = false ∧
    ({ ready.mgmt with sinceCheck := 1 } : Mgmt).sinceCheck = 1 ∧ 0 < ready.mgmt.seqNext ∧ ready.mgmt.sigQueue = [] ∧
    ready.mgmt.sinceCheck < 256 ∧ ((working 0x1002 0 [loadPart] stored).ring 0).cmd 0 ≠ none := by
  refine ⟨fun i h => ?_, fun i h => ?_, by decide +kernel⟩
  · omega
  · omega

/-- A baseline (R522), a window's end (R535), and a checkpoint (R542). -/
theorem test_ageing : (Map.get Lead.init (after (.ageingMeasurement [(0, 62500)]) (aged 0 0)).plan.clusters 0).r0 = 1000000 ∧
    (after (.ageingMeasurement [(0, 62500)]) (aged 1000000 0)).plan.generation = 0 := by decide +kernel
theorem test_checkpoint : let s := after (.checkpoint []) { ready with mgmt := { ready.mgmt with sinceCheck := 1 } }
    s.mgmt.checkPending = true ∧ s.mgmt.sigQueue.map (·.kind) = [0] ∧ (after .signatureComplete ready) = ready ∧
    (after (.checkpoint [0x40]) { ready with mgmt := { ready.mgmt with checkPending := true } }).mgmt.held.map (fun b => bytesAt b.bytes 40 8) = [0x40] ∧
    (after (.checkpoint []) { ready with mgmt := { ready.mgmt with checkPending := true, sinceCheck := 1 } }).mgmt.checkDue = true := by
  decide +kernel
theorem test_corrected_window : (after (.correctedWindowEnd ⟨1, 7⟩ 0)
    { ready with mgmt := { ready.mgmt with windows := [((2 ^ 32 + 7) * 16, 5)] } }).mgmt.held.map (fun b => bytesAt b.bytes 48 4) = [5] := by
  decide +kernel

/-- A module whose management port carries traffic, with a record to send. -/
def collecting : State := { ready with mgmt := { ready.mgmt with portUp := true, identity := zeros 32 } }

/-- A datagram of a type with a body. -/
def datagram (typ : Nat) (body : Bytes) : Datagram := { src := 77, bytes := le 0x504D 2 ++ le 1 1 ++ le typ 1 ++ zeros 12 ++ body }

theorem witness_managementPort :
    collecting.mgmtSends = true ∧ ready.mgmtSends = false ∧ collecting.mgmt.portUp = true ∧ ready.mgmt.portUp = false ∧ ready.helperOn 9 = true ∧
    State.reset.helperOn 9 = false ∧ collecting.accepts (datagram 4 []) 4 16 = true ∧ 77 ∉ collecting.mgmt.subscribers ∧
    collecting.mgmt.subscribers.length < 4 ∧ (∀ n ∈ [1, 4096], collecting.accepts (datagram 5 (le 0 4 ++ le n 2 ++ zeros 2)) 5 24 = true ∧
      bytesAt (datagram 5 (le 0 4 ++ le n 2 ++ zeros 2)).bytes 20 2 = n) ∧ ¬ (4097 ≤ 4096) ∧ collecting.mgmt.identity.length = 32 ∧
    5 ∉ collecting.mgmt.prefixes := by decide +kernel

/-- ANNOUNCE, SUBSCRIBE, its expiry, RESEND and a router advertisement (R537-R540, R543). -/
theorem test_management_port :
    (after .announceTimer collecting).mgmt.out.map (fun d => bytesAt d.2 3 1) = [3] ∧
    (after (.subscribe (datagram 4 [])) collecting).mgmt.subscribers = [77] ∧
    (after (.subscriptionExpiry 77) (after (.subscribe (datagram 4 [])) collecting)).mgmt.subscribers = [] ∧
    (after (.routerAdvertisement 5) collecting).mgmt.prefixes = [5] ∧ (after .managementPortDown collecting).mgmt.portUp = false ∧
    (after .managementPortUp ready).mgmt.portUp = true := by decide +kernel

/-! ### Steps, resets and bring-up -/

theorem witness_stepQueue : ready.pending = [] := rfl

/-- An idle step and a step of a command answer a next state. -/
theorem witness_stepKeepsBooks : step ready = .next ready ∧ step { ready with pending := [.tripWaitExpiry] } =
    .next { ready with power := { ready.power with tripWait := false } } ∧ ready.hostMem.sorted = true := ⟨rfl, rfl, rfl⟩

theorem witness_deviceResets : ready.awake = true ∧ ({ ready with power := { ready.power with standby := false } } : State).awake = false ∧
    ({ ready with mgmt := { ready.mgmt with resetWait := true } } : State).mgmt.resetWait = true ∧ ready.mgmt.resetWait = false := by decide +kernel

/-- A device reset (R507). -/
theorem test_device_reset : let s := after (.deviceReset none) collecting
    s.regs.devState = 0 ∧ s.formes = [] ∧ s.rings = [] ∧ s.mgmt.started = false ∧ (s.bay 0).width = 3 ∧
    after .resetDeviceContainment collecting = collecting := by decide +kernel

/-- A module in bring-up at a step, with its field 0 powered and a wave count. -/
def starting (dev stage wave : Nat) : State :=
  { ready with regs := { ready.regs with devState := dev, step := stage }, boot := { Boot.init with addr := 0x100000, wave := wave }, formes := [] }

/-- The identity record of a module whose PUF value and vendor key are zero. -/
def identityHead : Bytes := le 0x54494449 4 ++ le 1 2 ++ zeros 2 ++ le 1 8 ++ le 2048 4 ++ zeros 12
def identityRecord : Bytes := (identityHead ++ sha256 (pufPublicKey 0)) ++ zeros 9936

/-- A bundle whose one item is that record, at offset 128. -/
def bundleByte (i : Nat) : Byte :=
  if i < 128 then sparse [(6, 2, 1), (64, 2, 3), (68, 4, 10000), (72, 8, 128)] i else identityRecord.getD (i - 128) 0

/-- A module that waits for its identity before that bundle; its silicon trusts the key of zeros. -/
def identifying : State :=
  withMem (image 0x100000 10128 bundleByte) { starting 2 2 0 with phys := { Phys.init with vendorHash := sha256 (zeros 32) } }

theorem imageRead_list {base n : Nat} {f : Nat → Byte} (l : Bytes) : ∀ i, i + l.length ≤ n → (∀ j < l.length, f (i + j) = l.getD j 0) →
    imageRead base n f i l.length = l := by
  induction l with
  | nil => intro i _ _; rfl
  | cons b t ih =>
    intro i hn hf
    rw [List.length_cons] at hn
    have e : f i = b := hf 0 (by rw [List.length_cons]; omega)
    rw [List.length_cons, imageRead, imageByte, if_pos (by omega), e, ih (i + 1) (by omega) (fun j hj => ?_)]
    have := hf (j + 1) (by rw [List.length_cons]; omega)
    rwa [show i + (j + 1) = i + 1 + j by omega] at this

theorem identityRecord_length : identityRecord.length = 10000 := by
  rw [identityRecord, List.length_append, List.length_append, sha256_length, zeros, List.length_replicate]
  rfl

theorem identifying_item : identifying.item 3 = some identityRecord := by
  have m : identifying.hostMem = image 0x100000 10128 bundleByte := withMem_hostMem _ _
  have a : identifying.boot.addr = 0x100000 := rfl
  have hb : ∀ off n, identifying.bundle off n = ofLe (imageRead 0x100000 10128 bundleByte off n) := fun off n =>
    congrArg ofLe (hostRead_image m n off)
  have d : identifying.directory = [(3, 0, 10000, 128)] := by
    simp only [State.directory, hb]
    decide +kernel
  have r := imageRead_list (base := 0x100000) (n := 10128) (f := bundleByte) identityRecord 128 (by have := identityRecord_length; omega)
    (fun j _ => by rw [bundleByte, if_neg (by omega), Nat.add_sub_cancel_left])
  rw [identityRecord_length] at r
  rw [State.item, d, a]
  exact congrArg some ((hostRead_image m 10000 128).trans r)

/-- The identity derivation succeeds there for every signature scheme under which the record verifies. -/
theorem witness_bootSteps_identity
    (h : Config.vendorVerify ((identityRecord.drop 64).take 32) (identityRecord.take 2144) (identityRecord.drop 2144) = true) :
    identifying.item 3 = some identityRecord ∧ identifying.identityItemOk identityRecord = true ∧
      sha256 (pufPublicKey 0) = (identityRecord.drop 32).take 32 := by
  have l : (identityHead ++ sha256 (pufPublicKey 0)).length = 64 := by
    rw [List.length_append, sha256_length]
    rfl
  have k : (identityRecord.drop 64).take 32 = zeros 32 := by
    rw [identityRecord, List.drop_left' l]
    rfl
  refine ⟨identifying_item, ?_, ?_⟩
  · rw [State.identityItemOk, State.vendorSigned, h, k, identityRecord_length]
    have v : identifying.phys.vendorHash = sha256 (zeros 32) := rfl
    have f : (decide ((10000 : Nat) = 10000 ∧ bytesAt identityRecord 0 4 = 0x54494449 ∧ bytesAt identityRecord 4 2 = 1 ∧
        bytesAt identityRecord 8 8 = identifying.phys.serial ∧ bytesAt identityRecord 16 4 = 2048) && zeroAt identityRecord 6 2
        && zeroAt identityRecord 20 12) = true := by decide +kernel
    rw [v, f, decide_eq_true rfl]
    rfl
  · rw [identityRecord, List.append_assoc, List.drop_left' (by rfl), List.take_left' (sha256_length _)]

theorem witness_bootSteps :
    State.reset.awake = true ∧ State.reset.clocks.pinQualified = true ∧ (starting 2 2 0).awake = true ∧ ((starting 2 2 0).bay 0).width ≠ 0 ∧
    State.reset.mgmt.started = false ∧
    (∀ n < 7, (starting 2 4 n).boot.wave = n ∧ (starting 2 4 n).power.tripWait = false ∧ (starting 2 4 n).power.wavesHeld = false ∧
      (starting 2 4 n).power.input = 1) ∧ ((starting 2 4 1).field 0).powered = true ∧ 0 / 8 + 1 = (starting 2 4 1).boot.wave := by decide +kernel

/-- Bring-up's first steps (R398, R492, R598). -/
theorem test_boot_steps :
    (after (.bootRomStart none) State.reset).regs.devState = 1 ∧ (after (.bootRomStart (some true)) State.reset).regs.devState = 6 ∧ ((after .fieldPowerWave (starting 2 3 0)).field 0).powered = true ∧
    (after (.railRegulationTimeout 0) (starting 2 4 1)).regs.devState = 6 := by decide +kernel

/-- A finding of the core-store test for cluster 0, and a state in a step of the tests. -/
def finding : ClusterTest := { cluster := 0, lowest := -3, cap := 30, deadCores := [513], finalFail := false }

theorem witness_bootTests :
    (∀ n ∈ [6, 8, 9], (starting 3 n 7).awake = true ∧ (starting 3 n 7).regs.devState = 3 ∧ (starting 3 n 7).regs.step = n) ∧
    isCluster finding.cluster = true ∧ (starting 3 6 7).fieldPresent 0 = true ∧ ((starting 3 6 7).field 0).powered = true ∧
    (starting 3 6 7).clusterPresent 0 = true ∧ (starting 3 6 7).additions.length + 17 ≤ 4096 ∧ (starting 3 8 7).present 0 = true ∧
    (starting 3 8 7).neighbour 0 1 = some 1 ∧ (starting 3 8 7).present 1 = true ∧
    (starting 3 8 7).linkDeadIn (starting 3 8 7).hellbox 0 1 = false ∧ (starting 3 9 7).boot.reportAddr = 0 ∧ (starting 3 9 7).gateDiffs = [] ∧ (starting 3 8 7).phys.stacked = true ∧ (starting 3 8 7).boot.nearDone = false ∧
    (starting 3 8 7).boot.linksDone = false ∧
    ({ starting 3 9 7 with hellbox := [retiredEntry 0 2] } : State).gateDiffs ≠ [] ∧
    (∀ k < 3, let b := entryOf 0x000D 0 [(16, 1, k), (24, 8, 1)]
      let s : State := { ready with rings := [(64, { active with cmds := [cmdOf b] })] }
      s.regs.devState ≠ 3 ∧ (s.fieldTests k).head? = some (64, cmdOf b)) := by decide +kernel

/-- The tests of bring-up and the gate (R494-R500). -/
theorem test_boot_tests :
    (after (.nearTierTestDone [0x3000]) (starting 3 8 7)).regs.step = 8 ∧
    ((after (.nearTierTestDone [0x3000]) (starting 3 8 7)).station 0).granules = [3] ∧
    (after (.linkDiscoveryDone ⟨[(0, 1, 17, 0)], [], false⟩) (starting 3 8 7)).hellbox.map (·.kind) = [2] ∧
    (after .readinessGate (starting 3 9 7)).regs.devState = 4 := by decide +kernel

/-- The module with its supply as given. -/
def supplied (g : Power → Power) : State := { ready with power := g ready.power }

theorem witness_supply :
    (supplied (fun p => { p with input := 0 })).power.input = 0 ∧ ready.power.input = 1 ∧ ready.power.standby = true ∧
    (supplied (fun p => { p with standby := false })).power.standby = false ∧ (supplied (fun p => { p with input := 2 })).power.input = 2 ∧
    ready.power.pairLost 0 = false ∧ (supplied (fun p => p.setPair 0 true)).power.pairLost 0 = true ∧
    (supplied (fun p => p.setPair 0 true)).power.pairLost (1 - 0) = false ∧ (supplied (fun p => { p with resetLow := true })).power.resetLow = true ∧
    ready.power.resetLow = false := by decide +kernel

/-- The supply and the control connector (R578-R585). -/
theorem test_supply :
    (after .inputRise (supplied (fun p => { p with input := 0 }))).power.input = 1 ∧
    ((after .powerGood (supplied (fun p => { p with standby := false }))).bay 1).width = 3 ∧
    (after .inputOutOfRange ready).regs.devState = 6 ∧ (after .inputReturn (supplied (fun p => { p with input := 2, wavesHeld := true }))).power.wavesHeld
      = false ∧ (after .inputLost ready).formes = [] := by decide +kernel
theorem test_connector :
    (after (.clipPairLost 0) ready).power.clipALost = true ∧ (after (.clipPairReturn 0) (after (.clipPairLost 0) ready)).power.clipALost = false ∧
    (after (.resetLAssert 100 false) ready).power.resetLow = true ∧ (after (.resetLAssert 9 true) ready).power.resetLow = false ∧
    (after .resetLRelease (after (.resetLAssert 10 true) ready)).power.resetLow = false ∧
    (after .tripWaitExpiry (supplied (fun p => { p with tripWait := true }))).power.tripWait = false := by decide +kernel

/-! ### Premises that many statements share -/

theorem withCore_noPending (x : Core) : (withCore x).NoPending := (by decide : ready.NoPending)
theorem formed_noPending (f : Forme → Forme) : (formed f).NoPending := (by decide : ready.NoPending)

/-- A module whose proof recorder holds a mebibyte. -/
def recordedFull : State := { ready with recorder := { queue := [zeros (2 ^ 20)], fingers := [] } }

/-- No field waits for its quoin and no command has ended in the states that the statements about cores, rings and bays are met in. -/
theorem witness_quietModule :
    recordedFull.proofFull = true ∧ (∀ p ∈ rowEntries, (asked p.2.2.1 p.2.1 p.1 p.2.2.2).NoPending) ∧ opening.NoPending ∧ (asked 1 0 0x1000 []).NoneEnded ∧
    (withRecords 73).NoneEnded ∧ (idle 71).NoneEnded ∧
    ready.proofFull = false := by
  refine ⟨?_, by decide +kernel⟩
  have h : (zeros (2 ^ 20)).length = 2 ^ 20 := List.length_replicate
  rw [State.proofFull, show recordedFull.recorder.queue = [zeros (2 ^ 20)] from rfl, List.map_cons, h]
  rfl

/-- Core 0 with a spill range of 64 bytes, about to store with `op` at `a`. -/
def nearSpill (op a : Nat) : State :=
  prog (word op 1 2 0 0) (fun x => { x with s := sregs [(2, a)], spill := [(0x1000, 64)] })

/-- An access that only reaches into a spill range (R174, R227), and one that ends where the range begins. -/
theorem witness_coreStoreAccess_spill :
    (∀ op ∈ [0x0E, 0x0F, 0x10, 0x11], (nearSpill op 0x1000).runs 0 op (word op 1 2 0 0) ∧
      effAddr (((nearSpill op 0x1000).core 0).rdS 2) (bits (word op 1 2 0 0) 11 0) 64 = 0x1000) ∧
    ((nearSpill 0x0E 0x1000).core 0).inSpill 0x103C 4 = true ∧ ((nearSpill 0x10 0x1000).core 0).inSpill 0x1000 64 = true ∧
    ((nearSpill 0x0E 0x1000).core 0).inSpill 0xFFC 4 = false ∧ ((nearSpill 0x10 0x1000).core 0).inSpill 0x1040 64 = false := by
  refine ⟨fun op h => ⟨runs_of ?_, ?_⟩, by decide +kernel⟩ <;> (revert op; decide +kernel)

/-- The elements of a cleared bank and of one that took a product have sound residues, and so does a bank to commit (R156, R159). -/
theorem witness_residues :
    (∀ e < 32, (multiplying.rdAcc 0 0 e).residueOk = true) ∧ six.residueOk = true ∧ ending.badBanks false = [] ∧
    ({ ending with acc := [(0, { six with rres := six.rres + 1 })] } : Core).badBanks false ≠ [] := by decide +kernel

/-- Core 0 about to send two slots on port 0 to a unit, slot 0 a request of operation `op` with its poison as given. -/
def asking3 (op : Nat) (p : Port) (psn : Nat) : State :=
  prog (0x3B * 2 ^ 26 + 4 * 2 ^ 13 + 1) (fun x => { x with
    ports := [(0, p)], blocks := [(0, { Block.init with sends := 1 })]
    v := [(4, { (lanes [op, 0x10, 0x10000]) with poison := BitVec.ofNat 16 psn })] })

/-- A send to a unit puts slot 0 into the header, and a poisoned one stops the core; a host control port takes one slot more (R102, R196,
R324). -/
theorem witness_sends_units :
    (∀ e ∈ [(1, ({ opened with target := 511 * 512 } : Port)), (3, { opened with target := 509 * 512, cfg := 1, size := 0 })],
      (∀ psn ∈ [0, 1], (asking3 e.1 e.2 psn).runs 0 0x3B (0x3B * 2 ^ 26 + 4 * 2 ^ 13 + 1)) ∧ e.2.state = 2 ∧ e.2.kind ≠ 0 ∧
      (((asking3 e.1 e.2 0).core 0).rdV 4).slot 0 = { data := BitVec.ofNat 256 (e.1 + 0x10 * 2 ^ 32 + 0x10000 * 2 ^ 64), lo := .clean, hi := .clean } ∧
      (((asking3 e.1 e.2 1).core 0).rdV 4).psn 0 = true ∧ replyLen e.2.kind (e.1 + 0x10 * 2 ^ 32 + 0x10000 * 2 ^ 64) ≤ e.2.size + 1) ∧
    ({ opened with target := 509 * 512, cfg := 1, size := 0 } : Port).kind = 3 ∧ ({ opened with cfg := 1 } : Port).control = true ∧
    (∀ lenient ∈ [true, false], ({ opened with state := 3, lenient := lenient } : Port).state ≠ 2) := by
  refine ⟨fun e he => ⟨fun psn h => runs_of ?_, ?_⟩, by decide +kernel⟩
  · revert psn
    revert e
    decide +kernel
  · revert e
    decide +kernel

/-- An item whose first codeword is poison, in a GRDS and at the head of a steering unit's token galley (R102). -/
theorem witness_poisonedHeads :
    (reading (0x3E * 2 ^ 26 + 2 * 2 ^ 17) (token 9 .poison)).runs 0 0x3E (0x3E * 2 ^ 26 + 2 * 2 ^ 17) ∧
    ((reading (0x3E * 2 ^ 26 + 2 * 2 ^ 17) (token 9 .poison)).core 0).head 0 = some (token 9 .poison) ∧
    (token 9 .poison).msg.slots.map (·.lo) = [.poison] ∧
    (coreAfter (.grds 0 Obs.quiet) (reading (0x3E * 2 ^ 26 + 2 * 2 ^ 17) (token 9 .poison))).fault.toNat % 256 = 10 := by
  exact ⟨runs_of (by decide +kernel), by decide +kernel⟩

/-- A MARK before an event ring that is ACTIVE; an event record that clears the consumer line (R426, R443, R449). -/
def marking : State :=
  let s := given ready 0 (entryOf 0x100D 0 [(16, 8, 5)])
  { s with rings := s.rings ++ [(72, active)] }
theorem witness_marks :
    marking.starts 0 0x100D (cmdOf (entryOf 0x100D 0 [(16, 8, 5)])) ∧ (marking.ring 72).state = 1 ∧
    ((given ready 0 (entryOf 0x100D 0 [])).ring 72).state ≠ 1 ∧
    ((after (.mark 0) marking).ring 0).cmds.map (fun c => c.ended.isSome) = [true] ∧
    ((withRecords 72).ring 72).sbase + 64 * (((withRecords 72).ring 72).produced % ((withRecords 72).ring 72).size) + 64
      ≤ ((withRecords 72).ring 72).cline := by
  exact ⟨starts_of (by decide +kernel), by decide +kernel⟩

end Sys2Proof.Tests
end

section
/-! PROOFS. The writes and reads of the BAR0 registers (R392-R394, R397, R401-R408): how an access reaches a register, what each
register does with it, and the statement about them. -/

namespace Sys2Proof.Machine

/-! ### An access under a row -/

/-- The commands of a BAR0 access, each with its row; MAILBOX_BOOT without stores of the host before it. -/
def barRows (a : Bar0) : List (Instr × Option BarRow) :=
  [(.helperClkEnWrite a, some .helper), (.mailboxBootWrite a [], some .boot), (.ringEnable a, some .enable),
   (.ringDisable a, some .disable), (.ringIrqWrite a, some .irq), (.containmentDefaultWrite a, some .containment),
   (.powerCapWrite a, some .cap), (.statusResetWrite a, some .reset), (.w1cFlagWrite a, some .flags), (.registerWrite a, none)]

theorem exec_barRows (s : State) (a : Bar0) : ∀ e ∈ barRows a, exec e.1 s = .next (s.barRow e.2 a) := by
  simp only [barRows, List.forall_mem_cons]
  exact ⟨rfl, rfl, rfl, rfl, rfl, rfl, rfl, rfl, rfl, rfl, fun _ h => nomatch h⟩

theorem exec_barCommand (s : State) {a : Bar0} {i : Instr} (h : i ∈ (barRows a).map Prod.fst) :
    ∃ row, exec i s = .next (s.barRow row a) := by
  obtain ⟨e, he, rfl⟩ := List.mem_map.1 h
  exact ⟨e.2, exec_barRows s a e he⟩

theorem State.barRow_unreached {s : State} {a : Bar0} (h : s.barReaches a = false) (row : Option BarRow) : s.barRow row a = s := by
  simp [State.barRow, h]

/-- While the clock ratio holds, an access crosses to the management processor as it was (R467, R468). -/
theorem State.barRow_reached {s : State} {a : Bar0} (h : s.barReaches a = true) (hb : s.busRatioBroken = false) (row : Option BarRow) :
    s.barRow row a = s.barTaken row a := by
  simp [State.barRow, State.crossBus, h, hb]

theorem State.barTaken_aborted {s : State} {a : Bar0} (h : s.barAborts a = true) (row : Option BarRow) :
    s.barTaken row a = s.barError a := by
  simp [State.barTaken, h]

theorem State.barTaken_read {s : State} {a : Bar0} (h : s.barAborts a = false) (hr : a.read = true) (row : Option BarRow) :
    s.barTaken row a = s := by
  simp [State.barTaken, h, hr]

/-! ### REGERR (R394, R407) -/

/-- From `t` to `u`, an access has only set REGERR with its bay and offset. -/
def Bar0.Notes (a : Bar0) (t u : State) : Prop :=
  u = { t with regs := { t.regs with flags := u.regs.flags, flagsCnt := u.regs.flagsCnt, regErr := u.regs.regErr } } ∧
    u.regs.flags.getLsbD 0 = true ∧ u.regs.regErr.toNat = a.off % 2 ^ 20 + 2 ^ 20 * (a.bay % 2)

theorem State.barError_notes (t : State) (a : Bar0) : a.Notes t (t.barError a) := by
  refine ⟨rfl, ?_, ?_⟩
  · simp [State.barError, State.setStatus]
  · have h : (t.barError a).regs.regErr.toNat = (a.off % 2 ^ 20 + 2 ^ 20 * (a.bay % 2)) % 2 ^ 32 := BitVec.toNat_ofNat _ _
    omega

/-! ### The register that an access touches (R392) -/

theorem laneOf_word {off : Nat} {g : BarReg} (h : barAt off = some (g, 4)) (v : Nat) : laneOf off v = [⟨g, 0, v⟩] := by
  simp [laneOf, h]

theorem Bar0.lanes_word {a : Bar0} {g : BarReg} (hs : a.size = 4) (hv : a.value < 2 ^ 32) (h : barAt a.off = some (g, 4)) :
    a.lanes = [⟨g, 0, a.value⟩] := by
  simp only [Bar0.lanes, hs, if_true, laneOf_word h, Nat.mod_eq_of_lt hv]

theorem Bar0.lanes_double {a : Bar0} {g : BarReg} (hs : a.size = 8) (hv : a.value < 2 ^ 64) (h : barAt a.off = some (g, 8)) :
    a.lanes = [⟨g, 0, a.value⟩] := by
  have h84 : ¬ (8 : Nat) = 4 := by decide
  simp only [Bar0.lanes, hs, h84, if_false, h, Nat.mod_eq_of_lt hv]

/-- An offset in the set-up block of a submission ring. -/
theorem ringBlock_submission {r o : Nat} (hr : r < 72) (ho : o < 64) : ringBlock (0x3000 + 64 * r + o) = some r := by
  have hin : 0x3000 ≤ 0x3000 + 64 * r + o ∧ 0x3000 + 64 * r + o < 0x4200 := by omega
  have hq : (0x3000 + 64 * r + o - 0x3000) / 64 = r := by omega
  rw [ringBlock, if_pos hin, hq]

theorem barAt_ringWord {r o : Nat} (hr : r < 72) (ho : o = 32 ∨ o = 36) : barAt (0x3000 + 64 * r + o) = some (.ringReg r o, 4) := by
  have hm : (0x3000 + 64 * r + o) % 64 = o := by omega
  have hn : ¬ (o = 0 ∨ o = 8 ∨ o = 16 ∨ o = 24) := by omega
  have hy : o = 32 ∨ o = 36 ∨ o = 40 := by omega
  simp only [barAt, ringBlock_submission hr (show o < 64 by omega), hm, hn, hy, if_true, if_false]

theorem barAt_ringAddr {r o : Nat} (hr : r < 72) (ho : o = 0 ∨ o = 8 ∨ o = 16 ∨ o = 24) :
    barAt (0x3000 + 64 * r + o) = some (.ringReg r o, 8) := by
  have hm : (0x3000 + 64 * r + o) % 64 = o := by omega
  simp only [barAt, ringBlock_submission hr (show o < 64 by omega), hm, ho, if_true]

/-! ### A write to one register -/

/-- A write that reaches the device while the clock ratio holds, ends in no completer abort, and touches the one register of a lane. -/
structure State.Writes (s : State) (a : Bar0) (l : BarLane) : Prop where
  reaches : s.barReaches a = true
  bus : s.busRatioBroken = false
  good : s.barAborts a = false
  write : a.read = false
  lanes : a.lanes = [l]

section
variable {s : State} {a : Bar0} {l : BarLane} {row : Option BarRow} {i : Instr} {t : State}

/-- Such a write takes effect under the row of its register, and sets REGERR when the register ignores it. -/
theorem State.Writes.barRow (h : s.Writes a l) (hrow : s.rowOf l = row) :
    s.barRow row a = if (s.writeLane a.bay l).2 then (s.writeLane a.bay l).1.barError a else (s.writeLane a.bay l).1 := by
  rw [State.barRow_reached h.reaches h.bus]
  cases row <;> simp [State.barTaken, State.barWrite, h.good, h.write, h.lanes, hrow]

theorem State.Writes.exec_eq (h : s.Writes a l) (hrow : s.rowOf l = row) (hi : (i, row) ∈ barRows a := by simp [barRows]) :
    exec i s = .next (if (s.writeLane a.bay l).2 then (s.writeLane a.bay l).1.barError a else (s.writeLane a.bay l).1) := by
  rw [exec_barRows s a _ hi, h.barRow hrow]

theorem State.Writes.exec_taken (h : s.Writes a l) (hrow : s.rowOf l = row) (hw : s.writeLane a.bay l = (t, false))
    (hi : (i, row) ∈ barRows a := by simp [barRows]) : exec i s = .next t := by
  rw [h.exec_eq hrow hi, hw]
  rfl

theorem State.Writes.exec_ignored (h : s.Writes a l) (hrow : s.rowOf l = row) (hw : s.writeLane a.bay l = (t, true))
    (hi : (i, row) ∈ barRows a := by simp [barRows]) : ∃ u, exec i s = .next u ∧ a.Notes t u := by
  refine ⟨t.barError a, ?_, t.barError_notes a⟩
  rw [h.exec_eq hrow hi, hw]
  rfl

end

/-! ### An operation over a list -/

/-- What every step of a list of operations keeps, the whole list keeps. -/
theorem State.forAll_rel {α : Type} {R : State → State → Prop} (refl : ∀ s, R s s) (trans : ∀ {s t u}, R s t → R t u → R s u)
    (l : List α) (f : State → α → State) (step : ∀ s x, R s (f s x)) (s : State) : R s (s.forAll l f) := by
  unfold State.forAll
  induction l generalizing s with
  | nil => exact refl s
  | cons x t ih => exact trans (step s x) (ih (f s x))

/-! ### Recording (R398, R552, R562) -/

/-- Only the recorder, the order records of the stations and the draws have changed. -/
def State.Recorded (s t : State) : Prop := t = { s with stations := t.stations, recorder := t.recorder, free := t.free }

theorem State.Recorded.refl (s : State) : s.Recorded s := rfl

theorem State.Recorded.trans {s t u : State} (h : s.Recorded t) (k : t.Recorded u) : s.Recorded u := by
  refine Eq.trans k ?_
  rw [h]

theorem State.Recorded.cores {s t : State} (h : s.Recorded t) : t.cores = s.cores := by rw [h]
theorem State.Recorded.rings {s t : State} (h : s.Recorded t) : t.rings = s.rings := by rw [h]
theorem State.Recorded.regs {s t : State} (h : s.Recorded t) : t.regs = s.regs := by rw [h]

theorem State.Recorded.forAll {α : Type} (l : List α) (f : State → α → State) (h : ∀ (s : State) x, s.Recorded (f s x)) (s : State) :
    s.Recorded (s.forAll l f) :=
  State.forAll_rel State.Recorded.refl State.Recorded.trans l f h s

theorem State.proofRecord_recorded (s : State) (k : Nat) (f : Option Nat) (fl : Nat) (b p : Bytes) :
    s.Recorded (s.proofRecord k f fl b p) := by
  unfold State.proofRecord
  split <;> rfl

theorem State.closeOrders_recorded (s : State) (n : Nat) (cut : Bool) (p : OrderRec → Bool) : s.Recorded (s.closeOrders n cut p) :=
  State.Recorded.trans (t := s.updStation n _) rfl
    (State.Recorded.forAll _ _ (fun s _ => s.proofRecord_recorded _ _ _ _ _) _)

theorem State.closeFingers_recorded (s : State) (r q : Nat) (f : Option Nat) (n : Nat) (cut : Bool) :
    s.Recorded (s.closeFingers r q f n cut) :=
  State.Recorded.trans (t := { s with recorder := _ }) rfl
    (State.Recorded.forAll _ _ (fun s _ => s.proofRecord_recorded _ _ _ _ _) _)

theorem State.stopRecording_recorded (s : State) : s.Recorded s.stopRecording :=
  (State.Recorded.forAll _ _ (fun s _ => s.closeOrders_recorded _ _ _) s).trans
    (State.Recorded.forAll _ _ (fun s _ => s.closeFingers_recorded _ _ _ _ _) _)

/-! ### HELPER_CLK_EN (R397, R398) -/

theorem State.releaseHeld_mgmt (s : State) : s.releaseHeld = { s with mgmt := s.releaseHeld.mgmt } := by
  unfold State.releaseHeld
  split <;> rfl

/-- HELPER_CLK_EN after a write of `v`: the bits of helpers that are present and not locked are taken. -/
def Regs.helpersAfter (g : Regs) (v : Nat) : Word :=
  let may := g.helperPresent &&& ~~~g.helperLock
  (g.helperEn &&& ~~~may) ||| (BitVec.ofNat 32 (v % 2 ^ 15) &&& may)

theorem Regs.helpersAfter_bit (g : Regs) (v : Nat) {i : Nat} (hi : i < 15) :
    (g.helpersAfter v).getLsbD i = if g.helperPresent.getLsbD i = true ∧ g.helperLock.getLsbD i = false
      then (BitVec.ofNat 32 v).getLsbD i else g.helperEn.getLsbD i := by
  have h32 : i < 32 := by omega
  have hask : (BitVec.ofNat 32 (v % 2 ^ 15)).getLsbD i = (BitVec.ofNat 32 v).getLsbD i := by
    simp only [BitVec.getLsbD_ofNat, Nat.testBit_mod_two_pow, hi, decide_true, Bool.true_and]
  simp only [Regs.helpersAfter, BitVec.getLsbD_or, BitVec.getLsbD_and, BitVec.getLsbD_not, hask, h32, decide_true, Bool.true_and]
  cases g.helperPresent.getLsbD i <;> cases g.helperLock.getLsbD i <;> simp

theorem State.writeHelpers_bootRom {s : State} (h : s.regs.devState = 0) (v : Nat) : s.writeHelpers v = (s, true) := by
  simp [State.writeHelpers, h]

/-- After the boot ROM has ended, such a write changes no core and no ring. -/
theorem State.writeHelpers_frame {s : State} (h : s.regs.devState ≠ 0) (v : Nat) :
    (s.writeHelpers v).1.cores = s.cores ∧ (s.writeHelpers v).1.rings = s.rings ∧
      (s.writeHelpers v).1.regs.helperEn = s.regs.helpersAfter v := by
  have hrec (p : Prop) [Decidable p] : s.Recorded (if p then s.stopRecording else s) := by
    split
    · exact s.stopRecording_recorded
    · exact State.Recorded.refl s
  unfold State.writeHelpers
  simp only [h, if_false]
  split
  · rw [State.releaseHeld_mgmt]
    exact ⟨(hrec _).cores, (hrec _).rings, rfl⟩
  · exact ⟨(hrec _).cores, (hrec _).rings, rfl⟩

/-! ### RING_CFG (R402, R403, R415) -/

/-- What fetching its entries leaves of a submission ring, and that it leaves every other ring as it was. -/
def State.RingKept (r : Nat) (s t : State) : Prop :=
  (t.ring r).state = (s.ring r).state ∧ (t.ring r).cfg = (s.ring r).cfg ∧ (t.ring r).produced = (s.ring r).produced ∧
    (t.ring r).cmds = (s.ring r).cmds ∧ ∀ q, q ≠ r → t.ring q = s.ring q

theorem State.RingKept.refl (r : Nat) (s : State) : State.RingKept r s s := ⟨rfl, rfl, rfl, rfl, fun _ _ => rfl⟩

theorem State.RingKept.trans {r : Nat} {s t u : State} (h : State.RingKept r s t) (k : State.RingKept r t u) : State.RingKept r s u := by
  obtain ⟨hst, hcfg, hpr, hcm, hq⟩ := h
  obtain ⟨kst, kcfg, kpr, kcm, kq⟩ := k
  exact ⟨kst.trans hst, kcfg.trans hcfg, kpr.trans hpr, kcm.trans hcm, fun q n => (kq q n).trans (hq q n)⟩

theorem State.RingKept.of_rings {r : Nat} {s t : State} (h : t.rings = s.rings) : State.RingKept r s t := by
  have hring (q : Nat) : t.ring q = s.ring q := by rw [State.ring, h, ← State.ring]
  simp [State.RingKept, hring]

theorem State.RingKept.updRing {r : Nat} {s : State} {f : Ring → Ring}
    (h : ∀ g, (f g).state = g.state ∧ (f g).cfg = g.cfg ∧ (f g).produced = g.produced ∧ (f g).cmds = g.cmds) :
    State.RingKept r s (s.updRing r f) := by
  obtain ⟨hst, hcfg, hpr, hcm⟩ := h (s.ring r)
  simp only [State.RingKept, State.ring_updRing]
  exact ⟨hst, hcfg, hpr, hcm, fun q n => s.ring_updRing_ne f n⟩

theorem State.ringWrite_ringKept (s : State) (r x : Nat) (b : Bytes) : State.RingKept r s (s.ringWrite r x b) := by
  unfold State.ringWrite
  split
  · exact State.RingKept.of_rings rfl
  · exact State.RingKept.updRing (fun _ => ⟨rfl, rfl, rfl, rfl⟩)

theorem State.descriptorDigest_rings (s : State) (r q : Nat) (f : Option Nat) (b : Bytes) :
    (s.descriptorDigest r q f b).rings = s.rings := (s.proofRecord_recorded _ _ _ _ _).rings

theorem State.fetchOne_ringKept (s : State) (r : Nat) : State.RingKept r s (s.fetchOne r) := by
  unfold State.fetchOne
  exact (State.RingKept.of_rings (s.descriptorDigest_rings _ _ _ _)).trans (State.RingKept.updRing (fun _ => ⟨rfl, rfl, rfl, rfl⟩))

theorem State.fetch_ringKept (s : State) (r : Nat) : State.RingKept r s (s.fetch r) := by
  have hread (x y : Nat) : State.RingKept r s (s.updRing r (fun g => { g with tail := x, consumed := y })) :=
    State.RingKept.updRing (fun _ => ⟨rfl, rfl, rfl, rfl⟩)
  have hall (t : State) (l : List Nat) : State.RingKept r t (t.forAll l (fun s _ => s.fetchOne r)) :=
    State.forAll_rel (State.RingKept.refl r) State.RingKept.trans l _ (fun s _ => s.fetchOne_ringKept r) t
  unfold State.fetch
  simp only []
  split
  · split
    · exact State.RingKept.updRing (fun _ => ⟨rfl, rfl, rfl, rfl⟩)
    · split
      · exact hread _ _
      · exact ((hread _ _).trans (hall _ _)).trans (State.ringWrite_ringKept _ r _ _)
  · exact State.RingKept.refl r s

theorem State.takeConsumer_submission {r : Nat} (hr : r < 72) (s : State) : s.takeConsumer r = s := by
  have h : ¬ 72 ≤ r := by omega
  simp [State.takeConsumer, h]

theorem cfgMask_submission {r : Nat} (hr : r < 72) : cfgMask r = 0x2FF00 := if_pos hr

theorem getLsbD_ofNat_zero (v : Nat) : (BitVec.ofNat 32 v).getLsbD 0 = v.testBit 0 := by
  simp only [BitVec.getLsbD_ofNat, Nat.zero_lt_succ, decide_true, Bool.true_and]

/-- A submission ring that does not run takes its set-up fields, and EN starts it. -/
theorem State.writeCfg_enable {s : State} {r v : Nat} (hr : r < 72) (hen : (s.ring r).cfg.getLsbD 0 = false) (hst : (s.ring r).state = 0)
    (hv : (BitVec.ofNat 32 v).getLsbD 0 = true) :
    s.writeCfg r v = (s.updRing r (fun g => { g with cfg := BitVec.ofNat 32 v &&& 0x2FF00 })).setEn r := by
  simp only [State.writeCfg, hen, hst, hv, cfgMask_submission hr, ne_eq, not_true_eq_false, decide_false, Bool.or_false, Bool.false_and,
    Bool.false_eq_true, if_false, Bool.not_false, Bool.and_true, if_true]

/-- EN starts a submission ring whose set-up is good: ACTIVE, every index 0, nothing outstanding (R415). -/
theorem State.setEn_started {s : State} {r : Nat} (hr : r < 72) (h : s.enableRing r = none) :
    ∃ u, s.setEn r = (u, false) ∧ (u.ring r).state = 1 ∧ (u.ring r).cfg = (s.ring r).cfg ||| 1 ∧ (u.ring r).produced = 0 ∧
      (u.ring r).cmds = [] ∧ ∀ q, q ≠ r → u.ring q = s.ring q := by
  obtain ⟨kst, kcfg, kpr, kcm, kq⟩ := (s.updRing r Ring.started).fetch_ringKept r
  rw [State.ring_updRing] at kst kcfg kpr kcm
  refine ⟨(s.updRing r Ring.started).fetch r, ?_, kst, kcfg, kpr, kcm, fun q n => (kq q n).trans (s.ring_updRing_ne _ n)⟩
  simp only [State.setEn, h, State.takeConsumer_submission hr]

theorem State.setEn_refused {s : State} {r e : Nat} (h : s.enableRing r = some e) :
    s.setEn r = (s.updRing r (fun g => { g with err := e }), true) := by
  simp only [State.setEn, h]

/-! ### Stopping a ring (R403, R453) -/

/-- A property of every listed ring's commands, of the commands of one ring. -/
theorem State.ring_cmds {s : State} {P : Cmd → Prop} (h : ∀ e ∈ s.rings, ∀ d ∈ e.2.cmds, P d) (r : Nat) : ∀ d ∈ (s.ring r).cmds, P d := by
  unfold State.ring
  generalize s.rings = m at h ⊢
  induction m with
  | nil => intro d hd; cases hd
  | cons e t ih =>
    obtain ⟨k, x⟩ := e
    rw [Map.get]
    split
    · exact h (k, x) (List.mem_cons_self ..)
    · exact ih (fun e he => h e (List.mem_cons_of_mem _ he))

/-- Changing a ring other than in its commands keeps what holds of every command of every ring. -/
theorem State.updRing_cmds {s : State} {P : Cmd → Prop} (h : ∀ e ∈ s.rings, ∀ d ∈ e.2.cmds, P d) (r : Nat) {f : Ring → Ring}
    (hf : (f (s.ring r)).cmds = (s.ring r).cmds) : ∀ e ∈ (s.updRing r f).rings, ∀ d ∈ e.2.cmds, P d := by
  intro e he
  have hmem : e = (r, f (s.ring r)) ∨ e ∈ s.rings := by
    have he' : e ∈ Map.set Ring.init s.rings r (f (s.ring r)) := he
    unfold Map.set at he'
    split at he'
    · exact .inr (List.mem_filter.1 he').1
    · exact ((Map.mem_insert _ _ _ _).1 he').imp_right (fun h => (List.mem_filter.1 h).1)
  obtain rfl | he := hmem
  · rw [hf]
    exact State.ring_cmds h r
  · exact h e he

theorem State.settle_noFence {s : State} (h : s.noFence) (n : Nat) : s.settle n = s := by
  have hnil : s.rings.flatMap (fun e => (e.2.cmds.filter s.fenceMet).map (fun c => (e.1, c))) = [] := by
    simp only [List.flatMap_eq_nil_iff, List.map_eq_nil_iff, List.filter_eq_nil_iff]
    intro e he d hd
    simp [State.fenceMet, h e he d hd]
  cases n with
  | zero => rfl
  | succ n => simp [State.settle, hnil]

theorem State.settleEnded_noneEnded {s : State} (h : s.NoneEnded) : s.settleEnded = s := by
  have hnil : s.rings.flatMap (fun e => (e.2.cmds.filter (s.writesDone e.1)).map (fun c => (e.1, c))) = [] := by
    simp only [List.flatMap_eq_nil_iff, List.map_eq_nil_iff, List.filter_eq_nil_iff]
    intro e he d hd
    simp [State.writesDone, h e he d hd]
  rw [State.settleEnded, hnil]
  rfl

/-- A ring whose EN is cleared: what it has not started is gone, and it stops when its commands have completed. -/
def Ring.disabled (g : Ring) : Ring :=
  { g with cfg := g.cfg &&& 0xFFFFFFFE, entries := [], fences := [], state := if g.cmds.isEmpty then 0 else 2 }

theorem State.clearEn_submission {s : State} {r : Nat} (hr : r < 72) (hf : s.noFence) (hn : s.NoneEnded) :
    s.clearEn r = s.updRing r Ring.disabled := by
  have h74 : ¬ r = 74 := by omega
  have h73 : ¬ r = 73 := by omega
  have hset : (s.updRing r Ring.disabled).settle allFences = s.updRing r Ring.disabled :=
    State.settle_noFence (State.updRing_cmds hf r rfl) _
  have hend : (s.updRing r Ring.disabled).settleEnded = s.updRing r Ring.disabled :=
    State.settleEnded_noneEnded (State.updRing_cmds hn r rfl)
  unfold State.clearEn
  simp only [h74, h73, false_and, if_false]
  exact (congrArg State.settleEnded hset).trans hend

theorem State.writeCfg_disable {s : State} {r v : Nat} (hr : r < 72) (hen : (s.ring r).cfg.getLsbD 0 = true)
    (hv : (BitVec.ofNat 32 v).getLsbD 0 = false) (hk : BitVec.ofNat 32 v &&& 0x2FF00 = (s.ring r).cfg &&& 0x2FF00)
    (hf : s.noFence) (hn : s.NoneEnded) : s.writeCfg r v = (s.updRing r Ring.disabled, false) := by
  simp only [State.writeCfg, hen, hv, cfgMask_submission hr, hk, State.clearEn_submission hr hf hn, ne_eq, not_true_eq_false, decide_false,
    Bool.true_or, Bool.and_false, Bool.false_and, Bool.false_eq_true, if_false, Bool.not_false, Bool.and_true, if_true]

/-! ### Ring addresses (R402) -/

theorem Ring.addr_setAddr (g : Ring) {o p : Nat} (v : Nat) (ho : o ∈ [0, 8, 16, 24]) (hp : p ∈ [0, 8, 16, 24]) :
    (g.setAddr o v).addr p = if p = o then v else g.addr p := by
  simp only [List.mem_cons, List.not_mem_nil, or_false] at ho hp
  rcases ho with rfl | rfl | rfl | rfl <;> rcases hp with rfl | rfl | rfl | rfl <;> rfl

/-- A whole write to an address register of a submission ring that does not run. -/
theorem State.writeRing_addr {s : State} {r o : Nat} (v : Nat) (hr : r < 72) (ho : o ∈ [0, 8, 16, 24])
    (hen : (s.ring r).cfg.getLsbD 0 = false) (hst : (s.ring r).state = 0) :
    ∃ h : Map Nat, s.writeRing ⟨.ringReg r o, 0, v⟩ r o
      = (({ s with regs := { s.regs with halves := h } } : State).updRing r (fun g => g.setAddr o v), false) := by
  have h72 : ¬ 72 ≤ r := by omega
  have h32 : o ≠ 32 ∧ o ≠ 36 ∧ o ≠ 40 := by
    refine ⟨?_, ?_, ?_⟩ <;> rintro rfl <;> revert ho <;> decide
  obtain ⟨n32, n36, n40⟩ := h32
  have n01 : ¬ (0 : Nat) = 1 := by decide
  have n02 : ¬ (0 : Nat) = 2 := by decide
  refine ⟨Map.set 0 s.regs.halves (BarReg.key (.ringReg r o)) 0, ?_⟩
  simp only [State.writeRing, State.join, n32, n36, n40, h72, hen, hst, and_false, Bool.false_eq_true, ne_eq, not_true_eq_false, or_self,
    n01, n02, if_false]

/-! ### MAILBOX_BOOT (R401, R490) -/

/-- What the checks of the bundle leave as it was. -/
def State.BootKept (s t : State) : Prop :=
  t.regs.bootAddr = s.regs.bootAddr ∧ t.regs.bootBay = s.regs.bootBay ∧ t.boot.addr = s.boot.addr ∧ t.boot.len = s.boot.len ∧
    t.hellbox = s.hellbox ∧ t.cores = s.cores

/-- How the start of the boot ends: in BRINGUP with an enablement record, or in AWAIT_HOST with BOOT_FAIL set. -/
def State.BootAnswered (t : State) : Prop :=
  (t.regs.devState = 2 ∧ t.enable ≠ none) ∨ (t.regs.devState = 1 ∧ t.regs.flags.getLsbD 1 = true)

theorem State.bootFails_kept (s : State) (item st : Nat) : s.BootKept (s.bootFails item st) := ⟨rfl, rfl, rfl, rfl, rfl, rfl⟩

theorem State.bootFails_answered (s : State) (item st : Nat) : (s.bootFails item st).BootAnswered :=
  .inr ⟨rfl, by simp [State.bootFails, State.setStatus]⟩

theorem State.takeEnable_kept (s : State) (b : Bytes) : s.BootKept (s.takeEnable b) := ⟨rfl, rfl, rfl, rfl, rfl, rfl⟩

theorem State.takeEnable_answered {s : State} (h : s.regs.devState = 2) (b : Bytes) : (s.takeEnable b).BootAnswered :=
  .inl ⟨h, Option.some_ne_none _⟩

theorem State.checkBundle_answers {s : State} (h : s.regs.devState = 2) : s.BootKept s.checkBundle ∧ s.checkBundle.BootAnswered := by
  unfold State.checkBundle
  split
  · exact ⟨s.bootFails_kept _ _, s.bootFails_answered _ _⟩
  · simp only []
    split
    · exact ⟨State.bootFails_kept _ _ _, State.bootFails_answered _ _ _⟩
    · split
      · split <;> exact ⟨State.bootFails_kept _ _ _, State.bootFails_answered _ _ _⟩
      · split <;> exact ⟨State.takeEnable_kept _ _, State.takeEnable_answered h _⟩

theorem State.startBoot_answers (s : State) (bay : Nat) :
    (s.startBoot bay).regs.bootAddr = s.regs.bootAddr ∧ (s.startBoot bay).regs.bootBay = bay ∧
      (s.startBoot bay).boot.addr = s.regs.bootAddr ∧ (s.startBoot bay).boot.len = s.regs.bootLen ∧ (s.startBoot bay).hellbox = [] ∧
      (s.startBoot bay).cores = s.cores ∧ (s.startBoot bay).BootAnswered := by
  obtain ⟨⟨hra, hbay, hba, hlen, hhb, hcores⟩, hans⟩ := State.checkBundle_answers (s := s.enterBringup bay) rfl
  exact ⟨hra, hbay, hba, hlen, hhb, hcores, hans⟩

/-! ### Each register's write -/

section
variable {s : State} {a : Bar0} {r : Nat}

/-- Under a command the write does nothing but set REGERR. -/
abbrev State.ignores (s : State) (a : Bar0) (i : Instr) : Prop := ∃ u, exec i s = .next u ∧ a.Notes s u

theorem exec_helperClkEnWrite_bootRom (w : s.Writes a ⟨.helperEn, 0, a.value⟩) (h : s.regs.devState = 0) :
    s.ignores a (.helperClkEnWrite a) :=
  w.exec_ignored (row := some .helper) rfl (State.writeHelpers_bootRom h _)

theorem exec_helperClkEnWrite (w : s.Writes a ⟨.helperEn, 0, a.value⟩) (h : s.regs.devState ≠ 0) :
    ∃ u, exec (.helperClkEnWrite a) s = .next u ∧ u.cores = s.cores ∧ u.rings = s.rings ∧
      u.regs.helperEn = s.regs.helpersAfter a.value := by
  refine ⟨_, w.exec_eq (row := some .helper) rfl, ?_⟩
  obtain ⟨hc, hr, he⟩ := State.writeHelpers_frame h a.value
  split <;> exact ⟨hc, hr, he⟩

theorem exec_ringEnable (w : s.Writes a ⟨.ringReg r 32, 0, a.value⟩) (hr : r < 72) (hen : (s.ring r).cfg.getLsbD 0 = false)
    (hst : (s.ring r).state = 0) (hv : (BitVec.ofNat 32 a.value).getLsbD 0 = true) :
    let t := s.updRing r (fun g => { g with cfg := BitVec.ofNat 32 a.value &&& 0x2FF00 })
    (t.enableRing r = none → ∃ u, exec (.ringEnable a) s = .next u ∧ (u.ring r).state = 1 ∧
      (u.ring r).cfg = BitVec.ofNat 32 a.value &&& 0x2FF00 ||| 1 ∧ (u.ring r).produced = 0 ∧ (u.ring r).cmds = [] ∧
      ∀ q, q ≠ r → u.ring q = s.ring q) ∧
    ∀ e, t.enableRing r = some e → ∃ u, exec (.ringEnable a) s = .next u ∧ a.Notes (t.updRing r (fun g => { g with err := e })) u := by
  intro t
  have hrow : s.rowOf ⟨.ringReg r 32, 0, a.value⟩ = some .enable := by
    simp only [State.rowOf, ← getLsbD_ofNat_zero, hv, hen, Bool.not_false, Bool.and_true, if_true]
  have hw : s.writeLane a.bay ⟨.ringReg r 32, 0, a.value⟩ = t.setEn r := State.writeCfg_enable hr hen hst hv
  constructor
  · intro h
    obtain ⟨u, hset, kst, kcfg, kpr, kcm, kq⟩ := State.setEn_started hr h
    rw [State.ring_updRing] at kcfg
    exact ⟨u, w.exec_taken hrow (hw.trans hset), kst, kcfg, kpr, kcm,
      fun q n => (kq q n).trans (s.ring_updRing_ne _ n)⟩
  · intro e h
    exact w.exec_ignored hrow (hw.trans (State.setEn_refused h))

theorem exec_ringDisable (w : s.Writes a ⟨.ringReg r 32, 0, a.value⟩) (hr : r < 72) (hen : (s.ring r).cfg.getLsbD 0 = true)
    (hv : (BitVec.ofNat 32 a.value).getLsbD 0 = false) (hk : BitVec.ofNat 32 a.value &&& 0x2FF00 = (s.ring r).cfg &&& 0x2FF00)
    (hf : s.noFence) (hn : s.NoneEnded) : exec (.ringDisable a) s = .next (s.updRing r Ring.disabled) := by
  have hrow : s.rowOf ⟨.ringReg r 32, 0, a.value⟩ = some .disable := by
    simp only [State.rowOf, ← getLsbD_ofNat_zero, hv, hen, Bool.not_false, Bool.not_true, Bool.and_false, Bool.and_true,
      Bool.false_eq_true, if_false, if_true]
  exact w.exec_taken hrow (State.writeCfg_disable hr hen hv hk hf hn)

theorem exec_powerCapWrite (w : s.Writes a ⟨.powerCap, 0, a.value⟩) {e : Enable} (he : s.enable = some e) :
    let good := s.operating = true ∧ 20 ≤ a.value % 128 ∧ a.value % 128 ≤ e.maxCap
    (good → exec (.powerCapWrite a) s = .next { s with regs := { s.regs with powerCap := a.value % 128 } }) ∧
    (¬ good → s.ignores a (.powerCapWrite a)) := by
  have hw : s.writeLane a.bay ⟨.powerCap, 0, a.value⟩ = if s.operating = true ∧ 20 ≤ a.value % 128 ∧ a.value % 128 ≤ e.maxCap
      then ({ s with regs := { s.regs with powerCap := a.value % 128 } }, false) else (s, true) := by
    simp only [State.writeLane, State.writeCap, he]
  exact ⟨fun h => w.exec_taken (row := some .cap) rfl (hw.trans (if_pos h)),
    fun h => w.exec_ignored (row := some .cap) rfl (hw.trans (if_neg h))⟩

theorem exec_statusResetWrite (w : s.Writes a ⟨.statusReset, 0, a.value⟩) :
    (a.value = 0x52455345 → exec (.statusResetWrite a) s = .next s.rebootDevice) ∧
    (a.value ≠ 0x52455345 → s.ignores a (.statusResetWrite a)) :=
  ⟨fun h => w.exec_taken (row := some .reset) rfl (if_pos h),
    fun h => w.exec_ignored (row := some .reset) rfl (if_neg h)⟩

theorem exec_registerWrite_bootLen (w : s.Writes a ⟨.bootLen, 0, a.value⟩) :
    (s.regs.devState = 1 → exec (.registerWrite a) s = .next { s with regs := { s.regs with bootLen := a.value } }) ∧
    (s.regs.devState ≠ 1 → s.ignores a (.registerWrite a)) :=
  ⟨fun h => w.exec_taken (row := none) rfl (if_neg (not_not_intro h)),
    fun h => w.exec_ignored (row := none) rfl (if_pos h)⟩

theorem exec_registerWrite_ringAddr {o : Nat} (w : s.Writes a ⟨.ringReg r o, 0, a.value⟩) (hr : r < 72) (ho : o ∈ [0, 8, 16, 24])
    (hen : (s.ring r).cfg.getLsbD 0 = false) (hst : (s.ring r).state = 0) :
    ∃ u, exec (.registerWrite a) s = .next u ∧ u = { s with rings := u.rings, regs := { s.regs with halves := u.regs.halves } } ∧
      (u.ring r).addr o = a.value ∧ (∀ p ∈ [0, 8, 16, 24], p ≠ o → (u.ring r).addr p = (s.ring r).addr p) ∧
      ∀ q, q ≠ r → u.ring q = s.ring q := by
  obtain ⟨h, hw⟩ := State.writeRing_addr a.value hr ho hen hst
  have hrow : s.rowOf ⟨.ringReg r o, 0, a.value⟩ = none := by
    simp only [List.mem_cons, List.not_mem_nil, or_false] at ho
    rcases ho with rfl | rfl | rfl | rfl <;> rfl
  refine ⟨_, w.exec_taken hrow hw, rfl, ?_, fun p hp n => ?_, fun q n => State.ring_updRing_ne _ _ n⟩
  · rw [State.ring_updRing, Ring.addr_setAddr _ _ ho ho, if_pos rfl]
  · rw [State.ring_updRing, Ring.addr_setAddr _ _ ho hp, if_neg n]
    rfl

theorem exec_mailboxBootWrite_refused (w : s.Writes a ⟨.boot, 0, a.value⟩) (h : s.regs.devState ≠ 1) :
    s.ignores a (.mailboxBootWrite a []) :=
  w.exec_ignored (row := some .boot) rfl (if_pos h)

/-- In AWAIT_HOST the write that completes MAILBOX_BOOT starts the boot. -/
theorem exec_mailboxBootWrite (w : s.Writes a ⟨.boot, 0, a.value⟩) (h : s.regs.devState = 1) :
    ∃ u, exec (.mailboxBootWrite a []) s = .next u ∧ u.regs.bootAddr = a.value ∧ u.regs.bootBay = a.bay ∧ u.boot.addr = a.value ∧
      u.boot.len = s.regs.bootLen ∧ u.hellbox = [] ∧ u.cores = s.cores ∧ u.BootAnswered := by
  have hw : s.writeLane a.bay ⟨.boot, 0, a.value⟩
      = (({ s with regs := { s.regs with bootAddr := a.value, halves := Map.set 0 s.regs.halves 0 0 } } : State).startBoot a.bay, false) :=
    if_neg (not_not_intro h)
  exact ⟨_, w.exec_taken (row := some .boot) rfl hw, State.startBoot_answers _ _⟩

end

/-! ### The statement -/

/-- Settles O50: an access is followed to the register that it touches, and each register's write is a lemma of its own. -/
theorem registerWrites : Obligations.RegisterWrites := by
  intro s a
  refine ⟨fun hr i hi => ?_, fun ⟨hr, hb⟩ ha i hi => ?_, fun ⟨hr, hb⟩ ha hrd i hi => ?_, fun ⟨hr, hb⟩ ha hw hs hv => ?_,
    fun ⟨hr, hb⟩ ha hw hs hv => ?_⟩
  · obtain ⟨row, he⟩ := exec_barCommand s (a := a) hi
    rw [he, State.barRow_unreached hr]
  · obtain ⟨row, he⟩ := exec_barCommand s (a := a) hi
    rw [State.barRow_reached hr hb, State.barTaken_aborted ha] at he
    exact ⟨_, he, s.barError_notes a⟩
  · obtain ⟨row, he⟩ := exec_barCommand s (a := a) hi
    rw [he, State.barRow_reached hr hb, State.barTaken_read ha hrd]
  · have writes {off : Nat} {g : BarReg} (h : a.off = off) (hg : barAt off = some (g, 4)) : s.Writes a ⟨g, 0, a.value⟩ :=
      ⟨hr, hb, ha, hw, Bar0.lanes_word hs hv (h ▸ hg)⟩
    refine ⟨fun h => ⟨fun hd => ?_, fun hd => ?_⟩, fun r hr h => ⟨fun hen hst hw => ?_, fun hen hw hk hf hn => ?_⟩,
      fun r hr h => ?_, fun h => ?_, fun h e he => ?_, fun h => ?_, fun h => ?_, fun h => ?_, fun h => ?_⟩
    · exact exec_helperClkEnWrite_bootRom (writes h rfl) hd
    · obtain ⟨u, hu, hc, hrg, hen⟩ := exec_helperClkEnWrite (writes h rfl) hd
      exact ⟨u, hu, hc, hrg, fun i hi => by rw [hen, Regs.helpersAfter_bit _ _ hi]⟩
    · exact exec_ringEnable (writes h (barAt_ringWord hr (.inl rfl))) hr hen hst hw
    · exact exec_ringDisable (writes h (barAt_ringWord hr (.inl rfl))) hr hen hw hk hf hn
    · exact (writes h (barAt_ringWord hr (.inr rfl))).exec_taken (row := some .irq) rfl rfl
    · exact (writes h rfl).exec_taken (row := some .containment) rfl rfl
    · exact exec_powerCapWrite (writes h rfl) he
    · exact exec_statusResetWrite (writes h rfl)
    · exact (writes h rfl).exec_taken (row := some .flags) rfl rfl
    · exact (writes h rfl).exec_taken (row := none) rfl rfl
    · exact exec_registerWrite_bootLen (writes h rfl)
  · have writes {off : Nat} {g : BarReg} (h : a.off = off) (hg : barAt off = some (g, 8)) : s.Writes a ⟨g, 0, a.value⟩ :=
      ⟨hr, hb, ha, hw, Bar0.lanes_double hs hv (h ▸ hg)⟩
    refine ⟨fun h => ⟨fun hd => ?_, fun hd => ?_⟩, fun r hr o ho h hen hst => ?_⟩
    · exact exec_mailboxBootWrite_refused (writes h rfl) hd
    · exact exec_mailboxBootWrite (writes h rfl) hd
    · exact exec_registerWrite_ringAddr (writes h (barAt_ringAddr hr (by simpa using ho))) hr ho hen hst

end Sys2Proof.Machine
end

section
/-! PROOFS. Numbers and fields read back from bytes (R8), and the fields of a record (R531). -/

namespace Sys2Proof.Machine

/-! ### Bytes at an offset (R8) -/

@[simp] theorem le_length (n k : Nat) : (le n k).length = k := by
  induction k generalizing n with
  | zero => rfl
  | succ k ih => rw [le, List.length_cons, ih]

@[simp] theorem zeros_length (n : Nat) : (zeros n).length = n := List.length_replicate

theorem ofLe_le (n k : Nat) : ofLe (le n k) = n % 256 ^ k := by
  induction k generalizing n with
  | zero => rw [le, ofLe, Nat.pow_zero, Nat.mod_one]
  | succ k ih => rw [le, ofLe, ih, Nat.pow_succ', Nat.mod_mul]; rfl

/-- What stands before an offset is passed over. -/
theorem bytesAt_append {a : Bytes} {off : Nat} (h : a.length ≤ off) (b : Bytes) (size : Nat) :
    bytesAt (a ++ b) off size = bytesAt b (off - a.length) size := by
  rw [bytesAt, List.drop_append, List.drop_eq_nil_of_le h, List.nil_append, bytesAt]

@[simp] theorem bytesAt_le_append (n k : Nat) (b : Bytes) : bytesAt (le n k ++ b) 0 k = n % 256 ^ k := by
  rw [bytesAt, List.drop_zero, List.take_left' (le_length n k), ofLe_le]

/-- Padding changes no field that lies within the length. -/
theorem bytesAt_padTo {off size n : Nat} (h : off + size ≤ n) (b : Bytes) : bytesAt (padTo b n) off size = bytesAt (b ++ zeros n) off size := by
  rw [bytesAt, padTo, List.drop_take, List.take_take, Nat.min_eq_left (by omega), bytesAt]

/-! ### The fields of a record (R531) -/

section
variable (r : RecSpec) (seq mc : Nat)

theorem RecSpec.bytesAt_kind : bytesAt (r.bytes seq mc) 4 1 = r.kind % 256 := by
  simp [RecSpec.bytes, bytesAt_append]

theorem RecSpec.bytesAt_cls : bytesAt (r.bytes seq mc) 5 1 = r.cls % 256 := by
  simp [RecSpec.bytes, bytesAt_append]

theorem RecSpec.bytesAt_unitKind : bytesAt (r.bytes seq mc) 17 1 = r.unitKind % 256 := by
  simp [RecSpec.bytes, bytesAt_append]

theorem RecSpec.bytesAt_unit : bytesAt (r.bytes seq mc) 20 4 = r.unit % 2 ^ 32 := by
  simp [RecSpec.bytes, bytesAt_append]

theorem RecSpec.drop_detail : (r.bytes seq mc).drop 32 = padTo r.detail 32 := List.drop_left' (by simp)

theorem RecSpec.bytesAt_detail {off size : Nat} (h : off + size ≤ 32) :
    bytesAt (r.bytes seq mc) (32 + off) size = bytesAt (r.detail ++ zeros 32) off size := by
  rw [bytesAt, ← List.drop_drop, RecSpec.drop_detail, ← bytesAt, bytesAt_padTo h]

end

/-- A CORRECTED record: the memory, the location and the corrections that it counts (R534, R535). -/
def correctedSpec (kind unit mem loc count : Nat) : RecSpec :=
  { RecSpec.event Config.clsCorrected kind unit (le mem 1 ++ zeros 7 ++ le loc 8 ++ le count 4) with action := 1 }

theorem correctedSpec_bytes (kind unit mem loc count seq mc : Nat) :
    let b := (correctedSpec kind unit mem loc count).bytes seq mc
    bytesAt b 4 1 = 0 ∧ bytesAt b 5 1 = 1 ∧ bytesAt b 17 1 = kind % 256 ∧ bytesAt b 20 4 = unit % 2 ^ 32 ∧ bytesAt b 32 1 = mem % 256 ∧
      bytesAt b 40 8 = loc % 2 ^ 64 ∧ bytesAt b 48 4 = count % 2 ^ 32 := by
  refine ⟨RecSpec.bytesAt_kind _ _ _, RecSpec.bytesAt_cls _ _ _, RecSpec.bytesAt_unitKind _ _ _, RecSpec.bytesAt_unit _ _ _, ?_, ?_, ?_⟩
  · rw [RecSpec.bytesAt_detail (off := 0) _ _ _ (by decide)]
    simp [correctedSpec, RecSpec.event]
  · rw [RecSpec.bytesAt_detail (off := 8) _ _ _ (by decide)]
    simp [correctedSpec, RecSpec.event, bytesAt_append]
  · rw [RecSpec.bytesAt_detail (off := 16) _ _ _ (by decide)]
    simp [correctedSpec, RecSpec.event, bytesAt_append]

end Sys2Proof.Machine
end

section
/-! PROOFS. What the end of a ring's command leaves as it was, and how a command that starts ends or stays outstanding (R420-R432). -/

namespace Sys2Proof.Machine

/-! ### Operations over a list -/

/-- What no step of a list of operations changes, the whole list leaves as it was. -/
theorem State.forAll_keeps {α β : Type} (p : State → β) (l : List α) {f : State → α → State} (h : ∀ s x, p (f s x) = p s) (s : State) :
    p (s.forAll l f) = p s :=
  State.forAll_rel (R := fun s t => p t = p s) (fun _ => rfl) (fun h k => k.trans h) l f h s

/-- Where each step gives one unit a value that no other step changes, every unit of the list has its value. -/
theorem State.forAll_sets {β : Type} (p : State → Nat → β) (v : Nat → β) {f : State → Nat → State} (hself : ∀ s k, p (f s k) k = v k)
    (hne : ∀ s k i, i ≠ k → p (f s k) i = p s i) (l : List Nat) (s : State) (i : Nat) :
    p (s.forAll l f) i = if i ∈ l then v i else p s i := by
  unfold State.forAll
  induction l generalizing s with
  | nil => rfl
  | cons k l ih =>
    rw [List.foldl_cons, ih]
    by_cases hl : i ∈ l
    · rw [if_pos hl, if_pos (List.mem_cons_of_mem _ hl)]
    · rw [if_neg hl]
      by_cases hk : i = k
      · rw [if_pos (hk ▸ List.mem_cons_self), hk, hself]
      · rw [if_neg (by simp [hk, hl]), hne _ _ _ hk]

/-! ### The end of a command (R418-R432) -/

/-- From `s` to `t`, only rings, interrupts and host memory have changed, and no ring has a command that it did not have. -/
structure State.Ends (s t : State) : Prop where
  frame : t = { s with rings := t.rings, hostMem := t.hostMem, hostPoison := t.hostPoison, msix := t.msix }
  cmds : ∀ q, (t.ring q).cmds ⊆ (s.ring q).cmds

theorem State.Ends.refl (s : State) : s.Ends s := ⟨rfl, fun _ _ h => h⟩

theorem State.Ends.trans {s t u : State} (h : s.Ends t) (k : t.Ends u) : s.Ends u :=
  ⟨k.frame.trans (by rw [h.frame]), fun q _ m => h.cmds q (k.cmds q m)⟩

section
variable {s t : State} (h : s.Ends t)
include h

theorem State.Ends.cores : t.cores = s.cores := by rw [h.frame]
theorem State.Ends.formes : t.formes = s.formes := by rw [h.frame]
theorem State.Ends.clusters : t.clusters = s.clusters := by rw [h.frame]
theorem State.Ends.stations : t.stations = s.stations := by rw [h.frame]
theorem State.Ends.mgmt : t.mgmt = s.mgmt := by rw [h.frame]

theorem State.Ends.core (k : Nat) : t.core k = s.core k := by rw [State.core, h.cores, ← State.core]
theorem State.Ends.forme (f : Nat) : t.forme f = s.forme f := by rw [State.forme, h.formes, ← State.forme]
theorem State.Ends.cluster (k : Nat) : t.cluster k = s.cluster k := by rw [State.cluster, h.clusters, ← State.cluster]

/-- A command that is done stays done. -/
theorem State.Ends.isDone {r q : Nat} (hd : s.isDone r q) : t.isDone r q :=
  List.find?_eq_none.2 (fun d hm => List.find?_eq_none.1 hd d (h.cmds r hm))

end

/-- A change of one ring that gives it no new command. -/
theorem State.updRing_ends {s : State} {r : Nat} {f : Ring → Ring} (h : (f (s.ring r)).cmds ⊆ (s.ring r).cmds) : s.Ends (s.updRing r f) := by
  refine ⟨rfl, fun q => ?_⟩
  by_cases hq : q = r
  · rw [hq, State.ring_updRing]
    exact h
  · rw [State.ring_updRing_ne _ _ hq]
    exact fun _ m => m

theorem State.ringWrite_ends (s : State) (r a : Nat) (b : Bytes) : s.Ends (s.ringWrite r a b) := by
  unfold State.ringWrite
  split
  · exact ⟨rfl, fun _ _ m => m⟩
  · exact State.updRing_ends (fun _ m => m)

theorem State.writeConsumer_ends (s : State) (r : Nat) : s.Ends (s.writeConsumer r) := s.ringWrite_ends r _ _

theorem State.raiseIrq_ends (s : State) (r : Nat) : s.Ends (s.raiseIrq r) := by
  have hreset : s.Ends (s.updRing r (fun g => { g with modCount := 0 })) := State.updRing_ends (fun _ m => m)
  unfold State.raiseIrq
  simp only []
  split
  · exact State.Ends.refl s
  · split
    · exact hreset.trans ⟨rfl, fun _ _ m => m⟩
    · exact hreset.trans (State.updRing_ends (fun _ m => m))

theorem State.countIrq_ends (s : State) (r : Nat) : s.Ends (s.countIrq r) := by
  have hcount : s.Ends (s.updRing r (fun g => { g with modCount := g.modCount + 1 })) := State.updRing_ends (fun _ m => m)
  unfold State.countIrq
  simp only []
  split
  · exact hcount.trans (State.raiseIrq_ends _ r)
  · exact hcount

theorem Ring.retire_cmds (g : Ring) (c : Cmd) (st : Nat) : (g.retire c st).cmds = g.cmds.filter (fun d => d.sq != c.sq) := rfl

/-- A completion takes its command off the ring: the entry is written before, the consumer line and the interrupt come after. -/
theorem State.complete_ends (s : State) (r : Nat) (c : Cmd) (k : Compl) : s.Ends (s.complete r c k) ∧ (s.complete r c k).isDone r c.sq := by
  unfold State.complete
  simp only []
  generalize hs1 : (if (c.flags.testBit 2 && decide (k.status = Config.ok)) = true then s else s.ringWrite r _ _) = s1
  have h1 : s.Ends s1 := by
    rw [← hs1]
    split
    · exact State.Ends.refl s
    · exact s.ringWrite_ends r _ _
  generalize hs2 : s1.updRing r _ = s2
  have h2 : s1.Ends s2 := by
    rw [← hs2]
    exact State.updRing_ends List.filter_sublist.subset
  have hd : s2.isDone r c.sq := by
    rw [← hs2, State.isDone, State.ring_updRing]
    simp [Ring.cmd, Ring.retire_cmds]
  have h3 (t : State) (ht : s2.Ends t) : s.Ends t ∧ t.isDone r c.sq := ⟨(h1.trans h2).trans ht, ht.isDone hd⟩
  split
  · exact h3 _ (s2.writeConsumer_ends r)
  · split
    · exact h3 _ ((s2.writeConsumer_ends r).trans (State.raiseIrq_ends _ r))
    · exact h3 _ ((s2.writeConsumer_ends r).trans (State.countIrq_ends _ r))

theorem State.settle_ends (n : Nat) (s : State) : s.Ends (s.settle n) := by
  induction n generalizing s with
  | zero => exact State.Ends.refl s
  | succ n ih =>
    unfold State.settle
    simp only []
    split
    · exact State.Ends.refl s
    · exact (s.complete_ends _ _ _).1.trans (ih _)

theorem State.finish_ends (s : State) (r : Nat) (c : Cmd) (k : Compl) : s.Ends (s.finish r c k) :=
  (s.complete_ends r c k).1.trans (State.settle_ends _ _)

theorem State.finish_isDone (s : State) (r : Nat) (c : Cmd) (k : Compl) : (s.finish r c k).isDone r c.sq :=
  (State.settle_ends _ _).isDone (s.complete_ends r c k).2

/-! ### A command that starts (R420-R424) -/

section
variable {s : State} {r op : Nat} {c : Cmd} (h : s.starts r op c) (ho : isOpcode op = true) {run : State → Cmd → State}
include h

theorem State.starts.opIs : opIs op c = true := by
  obtain ⟨_, _, _, hop, _⟩ := h
  exact decide_eq_true hop

include ho

/-- A command whose own effect ends it. -/
theorem State.startRing_finishes {t : State} {k : Compl} (hrun : run (s.taken r c) c = t.finish r c k) :
    s.startRing r (opIs op) run = t.finish r c k := by
  have hd : (((t.finish r c k).ring r).cmd c.sq).isSome = false := by rw [t.finish_isDone r c k]; rfl
  rw [State.startRing_starts h ho _ h.opIs, hrun, hd]
  rfl

/-- A command that its own effect leaves outstanding: the consumer line shows it. -/
theorem State.startRing_stays {t : State} (hrun : run (s.taken r c) c = t) (hd : ¬ t.isDone r c.sq) :
    s.startRing r (opIs op) run = t.writeConsumer r := by
  rw [State.startRing_starts h ho _ h.opIs, hrun, if_pos (Option.isSome_iff_ne_none.2 hd)]

end

/-- A command that has just started is outstanding. -/
theorem State.taken_not_isDone (s : State) (r : Nat) (c : Cmd) : ¬ (s.taken r c).isDone r c.sq := by
  intro h
  rw [State.isDone, State.taken, State.ring_updRing] at h
  exact List.find?_eq_none.1 h c (List.mem_append_right _ (List.mem_singleton_self c)) (beq_self_eq_true _)

/-- The consumer line is no command's end. -/
theorem State.writeConsumer_isDone (s : State) (r q : Nat) : (s.writeConsumer r).isDone r q ↔ s.isDone r q := by
  obtain ⟨_, _, _, hcm, _⟩ := s.ringWrite_ringKept r (s.ring r).cline
    (le (s.ring r).fetched 4 ++ le (s.ring r).produced 4 ++ le (s.ring r).cmds.length 4 ++ zeros 52)
  simp only [State.isDone, Ring.cmd, State.writeConsumer, hcm]

end Sys2Proof.Machine
end

section
/-! PROOFS. OPEN_FORME and OPEN_WINDOW (R48, R49, R276, R277, R283, R405): what each changes, and the statement about them. -/

namespace Sys2Proof.Machine

/-! ### The view of a forme that opens (R26, R49) -/

theorem State.recompute_keeps {β : Type} (p : State → β) (h : ∀ (s : State) m, p { s with columns := m } = p s) (s : State) (f : Nat) :
    p (s.recompute f) = p s := by
  refine State.forAll_keeps p _ (fun s k => ?_) s
  split
  · rfl
  · exact h s _

section
variable (s : State) (f : Nat) (c : Cmd)

@[simp] theorem State.viewed_forme : (s.viewed f c).forme f = s.openedForme c := State.forme_setForme _ _ _

theorem State.viewed_forme_ne {g : Nat} (h : g ≠ f) : (s.viewed f c).forme g = s.forme g :=
  (State.forme_setForme_ne _ _ h).trans (s.recompute_keeps (State.forme · g) (fun _ _ => rfl) f)

theorem State.viewed_cores : (s.viewed f c).cores = s.cores := s.recompute_keeps State.cores (fun _ _ => rfl) f
theorem State.viewed_fields : (s.viewed f c).fields = s.fields := s.recompute_keeps State.fields (fun _ _ => rfl) f
theorem State.viewed_stations : (s.viewed f c).stations = s.stations := s.recompute_keeps State.stations (fun _ _ => rfl) f

end

/-! ### The effects of OPEN_FORME (R277) -/

/-- The present cores of a forme that opens, reset. -/
def State.freshCores (t : State) (f : Nat) : State :=
  t.forAll (t.formeCores f) (fun s c => (s.setCore c (Core.fresh f (t.forme f).mapGen)).dropAssemblies (fun a => a.core == c))

/-- The present clusters of a forme that opens, as its own; `t` has its view. -/
def State.joinClusters (t s : State) (f : Nat) : State :=
  s.forAll ((t.forme f).clusters.filter (s.clusterPresentIn f)) (fun s k =>
    s.updCluster k (fun y => y.join f (Map.get Lead.init s.plan.clusters k)))

theorem State.openForme_eq (t : State) (f : Nat) :
    t.openForme f = ((t.joinClusters (t.freshCores f) f).installDetours f).settleDark allFields := rfl

theorem State.freshCores_keeps {β : Type} (p : State → β) (h : ∀ (s : State) m b, p { s with cores := m, bays := b } = p s) (t : State)
    (f : Nat) : p (t.freshCores f) = p t :=
  State.forAll_keeps p _ (fun s _ => h s _ _) t

theorem State.joinClusters_keeps {β : Type} (p : State → β) (h : ∀ (s : State) m, p { s with clusters := m } = p s) (t s : State)
    (f : Nat) : p (t.joinClusters s f) = p s :=
  State.forAll_keeps p _ (fun s _ => h s _) s

theorem State.installDetours_keeps {β : Type} (p : State → β) (h : ∀ (s : State) m, p { s with routers := m } = p s) (s : State) (f : Nat) :
    p (s.installDetours f) = p s :=
  State.forAll_keeps p _ (fun s _ => h s _) s

theorem State.freshCores_core (t : State) (f k : Nat) :
    (t.freshCores f).core k = if k ∈ t.formeCores f then Core.fresh f (t.forme f).mapGen else t.core k :=
  State.forAll_sets State.core (fun _ => Core.fresh f (t.forme f).mapGen)
    (f := fun s c => (s.setCore c (Core.fresh f (t.forme f).mapGen)).dropAssemblies (fun a => a.core == c))
    (fun s k => s.core_setCore k _) (fun s _ _ h => s.core_setCore_ne _ h) (t.formeCores f) t k

theorem State.joinClusters_cluster (t s : State) {f k : Nat} (h : k ∈ (t.forme f).clusters.filter (s.clusterPresentIn f)) :
    ((t.joinClusters s f).cluster k).forme = some f ∧ ((t.joinClusters s f).cluster k).formeStep = 33 := by
  have hset := State.forAll_sets (fun s k => ((s.cluster k).forme, (s.cluster k).formeStep)) (fun _ => (some f, 33))
    (f := fun s k => s.updCluster k (fun y => y.join f (Map.get Lead.init s.plan.clusters k)))
    (fun s k => by rw [State.cluster_updCluster]; rfl) (fun s k i hi => by rw [State.cluster_updCluster_ne _ _ hi])
    ((t.forme f).clusters.filter (s.clusterPresentIn f)) s k
  rw [if_pos h, Prod.ext_iff] at hset
  exact hset

section
variable {t : State} (hd : t.NoPending) (f : Nat)
include hd

/-- While no field waits for its layer quoin, none goes dark. -/
theorem State.openForme_quiet : t.openForme f = (t.joinClusters (t.freshCores f) f).installDetours f := by
  rw [State.openForme_eq]
  refine State.settleDark_quiet _ ?_
  rw [State.NoPending, State.installDetours_keeps State.fields (fun _ _ => rfl), State.joinClusters_keeps State.fields (fun _ _ => rfl),
    State.freshCores_keeps State.fields (fun _ _ _ => rfl)]
  exact hd

theorem State.openForme_keeps {β : Type} (p : State → β)
    (h : ∀ (s : State) m b k g, p { s with cores := m, bays := b, clusters := k, routers := g } = p s) : p (t.openForme f) = p t := by
  rw [State.openForme_quiet hd, State.installDetours_keeps p (fun s m => h s s.cores s.bays s.clusters m),
    State.joinClusters_keeps p (fun s m => h s s.cores s.bays m s.routers),
    State.freshCores_keeps p (fun s m b => h s m b s.clusters s.routers)]

theorem State.openForme_core (k : Nat) :
    (t.openForme f).core k = if k ∈ t.formeCores f then Core.fresh f (t.forme f).mapGen else t.core k := by
  rw [State.openForme_quiet hd, State.installDetours_keeps (State.core · k) (fun _ _ => rfl),
    State.joinClusters_keeps (State.core · k) (fun _ _ => rfl), State.freshCores_core]

theorem State.openForme_cluster {k : Nat} (hk : k ∈ (t.forme f).clusters) (hp : t.clusterPresentIn f k = true) :
    ((t.openForme f).cluster k).forme = some f ∧ ((t.openForme f).cluster k).formeStep = 33 := by
  rw [State.openForme_quiet hd, State.installDetours_keeps (State.cluster · k) (fun _ _ => rfl)]
  refine State.joinClusters_cluster t _ (List.mem_filter.2 ⟨hk, ?_⟩)
  rw [State.freshCores_keeps (State.clusterPresentIn · f k) (fun _ _ _ => rfl), hp]

end

/-- OPEN_FORME over a good rectangle whose view is not refused. -/
theorem State.startOpen_good {s : State} {r : Nat} {c : Cmd} (hq : rectOk c.rect = true)
    (hh : s.holderOf (rectClusters c.rect.1 c.rect.2.1 c.rect.2.2.1 c.rect.2.2.2) = none)
    (ht : ∀ k ∈ rectClusters c.rect.1 c.rect.2.1 c.rect.2.2.1 c.rect.2.2.2, (s.field (clusterField k)).testing = 0)
    (hv : (s.viewed (bytesAt c.entry 16 1) c).viewRefused (bytesAt c.entry 16 1) = none) :
    s.startOpen r c = ((s.viewed (bytesAt c.entry 16 1) c).openForme (bytesAt c.entry 16 1)).finish r c Compl.done := by
  have hany : (rectClusters c.rect.1 c.rect.2.1 c.rect.2.2.1 c.rect.2.2.2).any
      (fun k => decide ((s.field (clusterField k)).testing ≠ 0)) = false := by
    rw [List.any_eq_false]
    intro k hk
    simp [ht k hk]
  unfold State.startOpen
  simp only [hq, hh, hany, hv, not_true_eq_false, if_false, Bool.false_eq_true]

/-! ### A window record (R48, R283) -/

section
variable (x : Forme) (g : Rd) (o : Nat)

theorem Forme.putWindow_frame : x.putWindow g o = { x with near := (x.putWindow g o).near, host := (x.putWindow g o).host } := by
  unfold Forme.putWindow
  simp only []
  split <;> rfl

variable {g o}

theorem Forme.putWindow_near (h : g (o + 16) 1 = 0) :
    x.putWindow g o = { x with near := Map.set Window.init x.near (g (o + 17) 1) ⟨g o 8, g (o + 8) 8, g (o + 18) 1⟩ } := if_pos h

theorem Forme.putWindow_host (h : g (o + 16) 1 = 1) :
    x.putWindow g o = { x with host := Map.set Window.init x.host (g (o + 17) 1) ⟨g o 8, g (o + 8) 8, g (o + 18) 1⟩ } :=
  if_neg (by rw [h]; decide)

end

/-- OPEN_WINDOW with a good record over present stations. -/
theorem State.startWindow_good {s : State} {r : Nat} {c : Cmd} (hw : firstBad (windowChecks (entryReader c.entry) 24) = none)
    (ha : s.windowAbsent (entryReader c.entry) 24 = none) :
    s.startWindow r c = (s.updForme (bytesAt c.entry 16 1) (fun x => x.putWindow (entryReader c.entry) 24)).finish r c Compl.done := by
  simp only [State.startWindow, hw, ha]

theorem exec_openWindow {s : State} {r : Nat} {c : Cmd} (hs : s.starts r 0x0008 c)
    (hw : firstBad (windowChecks (entryReader c.entry) 24) = none) (ha : s.windowAbsent (entryReader c.entry) 24 = none) :
    exec (.openWindow r) s = .next (((s.taken r c).updForme (bytesAt c.entry 16 1)
      (fun x => x.putWindow (entryReader c.entry) 24)).finish r c Compl.done) :=
  congrArg Host.Outcome.next (State.startRing_finishes hs rfl (State.startWindow_good hw ha))

/-! ### The statement -/

/-- Settles O31: each command is its effect on the state, of which the frames of its steps are lemmas, and then its completion. -/
theorem openForme : Obligations.OpenForme := by
  refine ⟨fun s r c hs => ?_, fun s r c hs => ?_⟩
  · intro f q t l hq hh ht hv hd
    have hpend : t.NoPending := by
      rw [State.NoPending, State.viewed_fields]
      exact hd
    have hexec : exec (.openForme r) s = .next ((t.openForme f).finish r c Compl.done) :=
      congrArg Host.Outcome.next (State.startRing_finishes hs rfl (State.startOpen_good hq hh ht hv))
    have he := (t.openForme f).finish_ends r c Compl.done
    have hforme (g : Nat) := (he.forme g).trans (State.openForme_keeps hpend f (State.forme · g) (fun _ _ _ _ _ => rfl))
    have hopened := (hforme f).trans ((s.taken r c).viewed_forme f c)
    have hcore (k : Nat) := (he.core k).trans (State.openForme_core hpend f k)
    refine ⟨_, hexec, State.finish_isDone _ _ _ _, ?_, ?_, ?_, ?_, ?_, fun k hk hp => ?_, fun k hk => ?_, fun k hk => ?_, fun g hg => ?_, ?_⟩
    iterate 5 · rw [hopened]; rfl
    · rw [he.cluster]
      exact State.openForme_cluster hpend f (by rw [State.viewed_forme]; exact hk) hp
    · rw [hcore, if_pos hk, State.viewed_forme]
      rfl
    · rw [hcore, if_neg hk, State.core, State.viewed_cores]
      rfl
    · rw [hforme, State.viewed_forme_ne _ _ _ hg]
      rfl
    · rw [he.stations, State.openForme_keeps hpend f State.stations (fun _ _ _ _ _ => rfl), State.viewed_stations]
      rfl
  · intro b f w hw ha
    have he := ((s.taken r c).updForme f (fun x => x.putWindow (entryReader b) 24)).finish_ends r c Compl.done
    have hput := (he.forme f).trans (State.forme_updForme _ _ _)
    refine ⟨_, exec_openWindow hs hw ha, State.finish_isDone _ _ _ _, fun g hg => ?_, ?_, fun hk => ?_, fun hk => ?_⟩
    · exact (he.forme g).trans (State.forme_updForme_ne _ _ hg)
    · rw [hput]
      exact Forme.putWindow_frame _ _ _
    · rw [hput, Forme.putWindow_near (g := entryReader b) _ hk]
      exact ⟨rfl, Map.get_set _ _ _ _⟩
    · rw [hput, Forme.putWindow_host (g := entryReader b) _ hk]
      exact ⟨rfl, Map.get_set _ _ _ _⟩

end Sys2Proof.Machine
end

section
/-! PROOFS. QUERY, ATTEST and HELLBOX_EXPORT (R35, R41, R430, R439, R572, R575): each answers at once or leaves its command with the
signature queue, and the statement about them. -/

namespace Sys2Proof.Machine

/-! ### QUERY (R439) -/

/-- A QUERY with good operands; contexts are asked for on a stacked build only. -/
theorem State.startQuery_answers {s : State} {r : Nat} {c : Cmd} (hb : queryBad c.entry = none)
    (hp : bytesAt c.entry 16 2 = 7 → s.phys.stacked = true) : s.startQuery r c =
    let t := s.beforeQuery c.entry
    let q := t.queryBytes c.entry
    if bytesAt c.entry 40 4 < q.1.length then t.finish r c (Compl.noRoom q.1.length)
    else ({ t.hostPut (bytesAt c.entry 32 8) q.1 false with free := t.free + q.2 }).finish r c (Compl.okWith q.1.length) := by
  have hn : ¬ (bytesAt c.entry 16 2 = 7 ∧ s.phys.stacked = false) := fun ⟨h7, hf⟩ => by simp [hp h7] at hf
  simp only [State.startQuery, hb, hn, if_false]

/-! ### The signature queue (R575) -/

/-- A command that waits for its signature stays outstanding, and its operation is the last of the queue. -/
theorem State.askSignature_waits {s : State} {r op kind : Nat} {c : Cmd} {n : Nat} {body : Bytes} (h : s.starts r op c)
    (ho : isOpcode op = true) {run : State → Cmd → State}
    (hrun : run (s.taken r c) c = ({ s.taken r c with free := n } : State).askSignature kind r c body) :
    ∃ (u : State) (b : Bytes), s.startRing r (opIs op) run = u ∧ ¬ u.isDone r c.sq ∧
      u.mgmt.sigQueue = s.mgmt.sigQueue ++ [⟨kind, r, c.sq, b⟩] ∧ u.formes = s.formes ∧ u.cores = s.cores := by
  have hd : ¬ (({ s.taken r c with free := n } : State).askSignature kind r c body).isDone r c.sq := s.taken_not_isDone r c
  have he := (({ s.taken r c with free := n } : State).askSignature kind r c body).writeConsumer_ends r
  refine ⟨_, body, State.startRing_stays h ho hrun hd, ?_, ?_, he.formes, he.cores⟩
  · rwa [State.writeConsumer_isDone]
  · rw [he.mgmt]
    rfl

/-! ### The statement -/

/-- Settles O38: a command with room waits for its signature, and every other is its effect and then its completion. -/
theorem documents : Obligations.Documents := by
  intro s r c room asks
  refine ⟨fun hs hp hb => ?_, fun hs => ⟨fun hn => ?_, fun hn => ?_⟩, fun hs => ⟨fun hn => ?_, fun hn => ?_⟩⟩
  · have hrun := State.startQuery_answers (s := s.taken r c) (r := r) hb hp
    refine ⟨fun hn => ?_, fun hn => ?_⟩
    · exact congrArg Host.Outcome.next (State.startRing_finishes hs rfl (hrun.trans (if_pos hn)))
    · exact congrArg Host.Outcome.next (State.startRing_finishes hs rfl (hrun.trans (if_neg (Nat.not_lt.2 hn))))
  · exact congrArg Host.Outcome.next (State.startRing_finishes hs rfl (if_pos hn))
  · obtain ⟨u, b, hu, hrest⟩ := State.askSignature_waits hs rfl (run := fun s c => s.startAttest r c) (if_neg (Nat.not_lt.2 hn))
    exact ⟨u, b, congrArg Host.Outcome.next hu, hrest⟩
  · exact congrArg Host.Outcome.next (State.startRing_finishes hs rfl (if_pos hn))
  · obtain ⟨u, b, hu, hrest⟩ := State.askSignature_waits hs rfl (n := s.free) (run := fun s c => s.startExport r c) (if_neg (Nat.not_lt.2 hn))
    exact ⟨u, b, congrArg Host.Outcome.next hu, hrest⟩

end Sys2Proof.Machine
end

section
/-! PROOFS. Ageing, correction windows, checkpoints and signatures (R41, R522, R523, R527, R535, R541, R542, R575): what a record adds to
the chain, what a measurement round and a re-plan change, and the statement about them. -/

namespace Sys2Proof.Machine

/-! ### A record joins the chain (R531, R541, R543) -/

theorem lastN_append_getLast? {α : Type} (l : List α) (x : α) {n : Nat} (h : 0 < n) : (lastN (l ++ [x]) n).getLast? = some x := by
  have hn : ¬ (l ++ [x]).length ≤ (l ++ [x]).length - n := by
    rw [List.length_append, List.length_singleton]
    omega
  rw [lastN, List.getLast?_drop, if_neg hn, List.getLast?_concat]

/-- From `m` to `n`, the record `b` has joined the chain. -/
structure Mgmt.Chained (m : Mgmt) (b : Bytes) (n : Mgmt) : Prop where
  seqNext : n.seqNext = m.seqNext + 1
  held : ∃ x : Rec, n.held.getLast? = some x ∧ x.bytes = b
  chain : n.chain = if m.seqNext = 0 then sha256 b else sha256 (m.chain ++ b)
  sinceCheck : n.sinceCheck = if bytesAt b 4 1 = 3 then 0 else m.sinceCheck + 1
  started : n.started = m.started
  checkPending : n.checkPending = m.checkPending
  sigQueue : n.sigQueue = m.sigQueue
  windows : n.windows = m.windows

theorem ite_right_or_left {α : Type} {p : Prop} [Decidable p] (a b : α) : (if p then a else b) = b ∨ (if p then a else b) = a := by
  split
  · exact .inr rfl
  · exact .inl rfl

/-- A finished record joins the chain; when the event ring is full, EVTFULL may be set. -/
theorem State.chainWith_chained (s : State) (sends : Bool) (b : Bytes) : ∃ m, s.mgmt.Chained b m ∧
    (s.chainWith sends b = { s with mgmt := m } ∨ s.chainWith sends b = ({ s with mgmt := m } : State).setStatus 6) := by
  obtain ⟨x, hlast, hx⟩ : ∃ x : Rec, (lastN (s.mgmt.held ++ [⟨b, sends⟩]) Config.heldRecords).getLast? = some x ∧ x.bytes = b :=
    ⟨_, lastN_append_getLast? _ _ (by decide), rfl⟩
  unfold State.chainWith
  simp only []
  generalize lastN (s.mgmt.held ++ [⟨b, sends⟩]) Config.heldRecords = l at hlast ⊢
  refine ⟨_, ?_, ite_right_or_left _ _⟩
  cases sends <;> exact ⟨rfl, ⟨x, hlast, hx⟩, rfl, rfl, rfl, rfl, rfl, rfl⟩

/-- What no record changes, posting one leaves as it was. -/
theorem State.post_keeps {β : Type} (p : State → β) (h : ∀ (s : State) m g n, p { s with mgmt := m, regs := g, free := n } = p s)
    (s : State) (r : RecSpec) : p (s.post r) = p s := by
  unfold State.post
  simp only []
  split
  · obtain ⟨m, _, heq⟩ := s.draw.2.chainWith_chained s.draw.2.mgmtSends (r.bytes s.draw.2.mgmt.seqNext (s.draw.1 % 2 ^ 64))
    rw [State.chainRecord, State.chainBytes]
    obtain heq | heq := heq <;> rw [heq] <;> exact h s _ _ _
  · exact h s _ s.regs _

/-- Once the chain has started, a record that is posted joins it. -/
theorem State.post_chained {s : State} (h : s.mgmt.started = true) (r : RecSpec) :
    ∃ mc, s.mgmt.Chained (r.bytes s.mgmt.seqNext mc) (s.post r).mgmt := by
  refine ⟨s.draw.1 % 2 ^ 64, ?_⟩
  obtain ⟨m, hm, heq⟩ := s.draw.2.chainWith_chained s.draw.2.mgmtSends (r.bytes s.mgmt.seqNext (s.draw.1 % 2 ^ 64))
  have hpost : s.post r = s.draw.2.chainWith s.draw.2.mgmtSends (r.bytes s.mgmt.seqNext (s.draw.1 % 2 ^ 64)) := if_pos h
  rw [hpost]
  obtain heq | heq := heq <;> rw [heq] <;> exact hm

/-! ### The end of a correction window (R535) -/

theorem execCorrectedWindowEnd_eq (s : State) (v : UnitRef) (mem : Nat) :
    ∃ loc, execCorrectedWindowEnd v mem s =
      let key := (v.kind * 2 ^ 32 + v.n) * 16 + mem
      let count := Map.get 0 s.mgmt.windows key
      let t := { s with mgmt := { s.mgmt with windows := Map.set 0 s.mgmt.windows key 0 } }
      .next (if 2 ≤ count then t.draw.2.post (correctedSpec v.kind v.n mem loc count) else t) := ⟨_, rfl⟩

/-! ### Checkpoints (R541, R542) -/

/-- The first correction of a unit's memory in a window is posted. -/
theorem State.noteCorrected_first {s : State} {kind unit mem : Nat}
    (h : Map.get 0 s.mgmt.windows ((kind * 2 ^ 32 + unit) * 16 + mem) = 0) (loc : Nat) :
    ∃ w, s.noteCorrected kind unit mem loc =
      ({ s with mgmt := { s.mgmt with windows := w } } : State).post (correctedSpec kind unit mem loc 1) := by
  unfold State.noteCorrected
  simp only [h, if_true]
  exact ⟨_, rfl⟩

/-- Behind a pending signature a trigger posts nothing. -/
theorem State.checkpointTrigger_pending {s : State} (h : s.mgmt.checkPending = true) :
    ∃ due, s.checkpointTrigger = { s with mgmt := { s.mgmt with checkDue := due } } := by
  unfold State.checkpointTrigger
  split
  · exact ⟨true, rfl⟩
  · refine ⟨s.mgmt.checkDue, ?_⟩
    rw [State.tryCheckpoint, if_neg (fun hn => hn.2.1 h)]

/-- A checkpoint's record holds the chain before it, and its signature is asked for. -/
theorem State.checkpointNow_chained {s : State} (h : s.mgmt.started = true) : ∃ (b : Rec) (o : SigOp),
    s.checkpointNow.mgmt.seqNext = s.mgmt.seqNext + 1 ∧ s.checkpointNow.mgmt.checkPending = true ∧ s.checkpointNow.mgmt.sinceCheck = 0 ∧
      s.checkpointNow.mgmt.held.getLast? = some b ∧ bytesAt b.bytes 4 1 = 3 ∧ b.bytes.drop 32 = padTo s.mgmt.chain 32 ∧
      s.checkpointNow.mgmt.sigQueue = s.mgmt.sigQueue ++ [o] ∧ o.kind = 0 ∧
      (0 < s.mgmt.seqNext → s.checkpointNow.mgmt.chain = sha256 (s.mgmt.chain ++ b.bytes)) := by
  obtain ⟨mc, hc⟩ := State.post_chained h ⟨3, 0, 0, 0, none, 0, 0, 0, 0, s.mgmt.chain⟩
  obtain ⟨b, hlast, hb⟩ := hc.held
  have hkind : bytesAt b.bytes 4 1 = 3 := by rw [hb]; exact RecSpec.bytesAt_kind _ _ _
  refine ⟨b, ⟨0, s.mgmt.seqNext, 0, _⟩, hc.seqNext, rfl, ?_, hlast, hkind, ?_, congrArg (· ++ _) hc.sigQueue, rfl, fun hpos => ?_⟩
  · exact hc.sinceCheck.trans (if_pos (hb ▸ hkind))
  · rw [hb]
    exact RecSpec.drop_detail _ _ _
  · rw [hb]
    exact hc.chain.trans (if_neg (Nat.ne_of_gt hpos))

theorem State.checkpointNow_keeps {β : Type} (p : State → β) (h : ∀ (s : State) m g n, p { s with mgmt := m, regs := g, free := n } = p s)
    (s : State) : p s.checkpointNow = p s := (h (s.post _) _ _ _).trans (s.post_keeps p h _)

/-! ### Signatures (R541, R575) -/

/-- Sending datagrams changes only what has been sent. -/
theorem Mgmt.sends_eq {α : Type} (l : List α) (g : Mgmt → α → Bytes) (m : Mgmt) :
    l.foldl (fun m x => m.send (g m x)) m = { m with out := (l.foldl (fun m x => m.send (g m x)) m).out } := by
  induction l generalizing m with
  | nil => rfl
  | cons x l ih =>
    rw [List.foldl_cons, ih]
    rfl

/-- Sending a signature changes only what has been sent, and which signatures have been. -/
theorem Mgmt.sendSig_eq (m : Mgmt) (p : Bytes → Bool) :
    m.sendSig p = { m with sigs := (m.sendSig p).sigs, out := (m.sendSig p).out } ∧
      (m.sendSig p).sigs.map (·.bytes) = m.sigs.map (·.bytes) := by
  unfold Mgmt.sendSig
  split
  · exact ⟨rfl, rfl⟩
  · next e _ =>
    simp only []
    rw [Mgmt.sends_eq]
    refine ⟨rfl, ?_⟩
    rw [List.map_map]
    refine List.map_congr_left (fun x _ => ?_)
    simp only [Function.comp_apply]
    split <;> rfl

/-- A signed message is kept, sent or held, and the checkpoint is no longer pending. -/
theorem Mgmt.sendSig_signed (m : Mgmt) (sends : Bool) (p : Bytes → Bool) (b : Bytes) :
    let n : Mgmt := { m with sigs := lastN (m.sigs ++ [⟨b, false⟩]) 4, checkPending := false }
    ∃ l out, (if sends then n.sendSig p else n) = { m with sigs := l, checkPending := false, out := out } ∧ ∃ e ∈ l, e.bytes = b := by
  intro n
  have hlast : (⟨b, false⟩ : Rec) ∈ n.sigs := List.mem_of_getLast? (lastN_append_getLast? _ _ (by decide))
  cases sends
  · exact ⟨n.sigs, m.out, rfl, _, hlast, rfl⟩
  · obtain ⟨heq, hsigs⟩ := n.sendSig_eq p
    have hmem : b ∈ (n.sendSig p).sigs.map (·.bytes) := hsigs ▸ List.mem_map_of_mem (f := (·.bytes)) hlast
    exact ⟨_, _, heq, List.mem_map.1 hmem⟩

/-- A checkpoint's signature is kept, and no other checkpoint follows at once when no trigger has passed and fewer than 256 records have
been posted. -/
theorem State.checkpointSigned_kept {s : State} (o : SigOp) (hc : s.mgmt.sinceCheck < 256) (hd : s.mgmt.checkDue = false) :
    ∃ l out, s.checkpointSigned o = { s with mgmt := { s.mgmt with sigs := l, checkPending := false, out := out } } ∧
      ∃ e ∈ l, e.bytes = o.body ++ s.mgmt.sign o.body := by
  obtain ⟨l, out, heq, hl⟩ := s.mgmt.sendSig_signed s.mgmtSends (fun b => b.take 76 == o.body) (o.body ++ s.mgmt.sign o.body)
  refine ⟨l, out, ?_, hl⟩
  unfold State.checkpointSigned
  simp only []
  rw [heq, hd]
  exact if_neg (fun hn : _ ∧ _ ∧ _ => Nat.not_le.2 hc hn.2.2)

/-! ### The ageing index (R523) -/

/-- The index is an integer nearest to the exact value. -/
theorem ageingIndex_near {r0 : Nat} (h : r0 ≠ 0) (n tie : Nat) :
    2 * (ageingIndex r0 n tie * r0 - 1000000 * ((r0 : Int) - 16 * n)).natAbs ≤ r0 := by
  unfold ageingIndex
  simp only []
  generalize (1000000 * ((r0 : Int) - 16 * n) : Int) = a
  rw [Int.fdiv_eq_ediv_of_nonneg _ (Int.natCast_nonneg r0)]
  have hrem : a - a / r0 * r0 = a % r0 := by rw [Int.emod_def, Int.mul_comm]
  have hnn : 0 ≤ a % r0 := Int.emod_nonneg _ (by omega)
  have hlt : a % r0 < r0 := Int.emod_lt_of_pos _ (by omega)
  have htie : tie % 2 = 0 ∨ tie % 2 = 1 := Nat.mod_two_eq_zero_or_one tie
  rw [hrem]
  split
  · omega
  · split
    · rw [Int.add_mul]
      omega
    · rw [Int.add_mul]
      obtain h0 | h1 := htie
      · rw [h0]
        omega
      · rw [h1]
        omega

/-! ### A measurement round over one cluster (R522, R523) -/

section
variable {s : State} {k n : Nat}

theorem State.measure_baseline (h : (Map.get Lead.init s.plan.clusters k).r0 = 0) : ((s.measure (k, n)).cluster k).ageing = 0 ∧
    (s.measure (k, n)).plan = { s.plan with clusters := Map.upd Lead.init s.plan.clusters k (fun l => { l with r0 := 16 * n % 2 ^ 32 }) } := by
  have hm : s.measure (k, n) = (s.draw.2.updLead k (fun l => { l with r0 := 16 * n % 2 ^ 32 })).updCluster k
    (fun x => { x with ageing := 0 }) := if_pos h
  rw [hm, State.cluster_updCluster]
  exact ⟨rfl, rfl⟩

theorem State.measure_index (h : (Map.get Lead.init s.plan.clusters k).r0 ≠ 0) : s.measure (k, n) = s.draw.2.updCluster k
    (fun x => { x with ageing := ageingIndex (Map.get Lead.init s.plan.clusters k).r0 n s.draw.1 }) := if_neg h

/-- A round over one cluster: its measurement, a change of the plan where it gives the baseline, and the re-plan. -/
theorem exec_ageingMeasurement_one (ha : s.awake = true) (hm : s.measurable k = true) :
    exec (.ageingMeasurement [(k, n)]) s = .next (State.replan (if (Map.get Lead.init s.plan.clusters k).r0 = 0
      then { s.measure (k, n) with plan := { (s.measure (k, n)).plan with generation := ((s.measure (k, n)).plan.generation + 1) % 2 ^ 32 } }
      else s.measure (k, n)) [k]) := by
  have hone : ([k].eraseDups : List Nat) = [k] := rfl
  show execAgeingMeasurement [(k, n)] s = _
  simp only [execAgeingMeasurement, ha, hm, List.filter_cons_of_pos, List.filter_nil, List.any_cons, List.any_nil, Bool.or_false,
    decide_eq_true_eq, List.map_cons, List.map_nil, hone, State.forAll, List.foldl_cons, List.foldl_nil, if_true]

end

/-! ### The re-plan (R527, R528) -/

/-- How far a cluster's index has moved from its record of the plan (R527). -/
def State.moved (s : State) (k : Nat) : Int := (s.cluster k).ageing - (Map.get Lead.init s.plan.clusters k).index

/-- The clusters of a list whose indices have moved by more than 500 ppm. -/
def State.due (s : State) (l : List Nat) : List Nat := l.filter (fun k => decide (500 < s.moved k ∨ s.moved k < -500))

theorem State.due_singleton (s : State) (k : Nat) : s.due [k] = if 500 < s.moved k ∨ s.moved k < -500 then [k] else [] := by
  simp only [State.due, List.filter_cons, List.filter_nil, decide_eq_true_eq]

/-- The state in which the clusters of a list have given the plan their indices, and the new plan joins the history and is taken. -/
def State.replanned (s : State) (due : List Nat) : State :=
  let t := s.forAll due (fun s k => s.updLead k (fun x => x.replan (s.cluster k).ageing))
  (t.forAll ((List.range 56).filter t.fieldPresent) State.liftField).extendChain.applyPlan

/-- A re-plan with a cluster that is due is posted. -/
theorem State.replan_eq (s : State) (l : List Nat) :
    ∃ spec, s.replan l = if (s.due l).isEmpty then s else (s.replanned (s.due l)).post spec := ⟨_, rfl⟩

/-- A cluster that has moved by 500 ppm or less changes no plan. -/
theorem State.replan_near {s : State} {k : Nat} (h : -500 ≤ s.moved k ∧ s.moved k ≤ 500) : s.replan [k] = s := by
  have hn : ¬ (500 < s.moved k ∨ s.moved k < -500) := by omega
  obtain ⟨spec, heq⟩ := s.replan_eq [k]
  rw [heq, s.due_singleton, if_neg hn, List.isEmpty_nil, if_pos rfl]

theorem Lead.replan_index (l : Lead) (i : Int) : (l.replan i).index = i := by
  unfold Lead.replan
  simp only []
  split
  · rfl
  · split <;> rfl

/-- Raising a field's setpoint changes neither the generation nor an index, nor a cluster. -/
theorem State.liftField_keeps {β : Type} (p : State → β) (hs : ∀ (s : State) m, p { s with plan := { s.plan with setpoints := m } } = p s)
    (hv : ∀ (s : State) k (v : Lead → Int), p (s.updLead k (fun x => { x with voff := v x })) = p s) (s : State) (f : Nat) :
    p (s.liftField f) = p s := by
  unfold State.liftField
  simp only []
  split
  · exact (State.forAll_keeps p _ (fun s k => hv s k _) _).trans (hs s _)
  · rfl

theorem State.liftFields_keeps {β : Type} (p : State → β) (hs : ∀ (s : State) m, p { s with plan := { s.plan with setpoints := m } } = p s)
    (hv : ∀ (s : State) k (v : Lead → Int), p (s.updLead k (fun x => { x with voff := v x })) = p s) (l : List Nat) (s : State) :
    p (s.forAll l State.liftField) = p s := State.forAll_keeps p l (State.liftField_keeps p hs hv) s

theorem State.updLead_voff_index (s : State) (k i : Nat) (v : Lead → Int) :
    (Map.get Lead.init (s.updLead k (fun x => { x with voff := v x })).plan.clusters i).index = (Map.get Lead.init s.plan.clusters i).index := by
  rw [State.updLead, Map.get_upd]
  split
  · next h => rw [h]
  · rfl

theorem State.applyPlan_plan (s : State) : s.applyPlan.plan = s.plan := by
  refine State.forAll_keeps State.plan _ (fun s k => ?_) s
  rfl

theorem State.applyPlan_ageing (s : State) (k : Nat) : (s.applyPlan.cluster k).ageing = (s.cluster k).ageing := by
  unfold State.applyPlan
  refine State.forAll_keeps (fun s => (s.cluster k).ageing) _ (fun s j => ?_) s
  by_cases h : k = j
  · rw [h, State.takeLead, State.cluster_updCluster]
  · rw [State.takeLead, State.cluster_updCluster_ne _ _ h]

/-- A re-plan of one cluster leaves what it measured, and makes a new plan with the cluster's index. -/
theorem State.replanned_one (s : State) (k : Nat) : ((s.replanned [k]).cluster k).ageing = (s.cluster k).ageing ∧
    (s.replanned [k]).plan.generation = (s.plan.generation + 1) % 2 ^ 32 ∧
    (Map.get Lead.init (s.replanned [k]).plan.clusters k).index = (s.cluster k).ageing := by
  refine ⟨?_, ?_, ?_⟩
  · rw [State.replanned, State.applyPlan_ageing]
    exact State.liftFields_keeps (fun s => (s.cluster k).ageing) (fun _ _ => rfl) (fun _ _ _ => rfl) _ _
  · rw [State.replanned, State.applyPlan_plan]
    exact congrArg (fun g => (g + 1) % 2 ^ 32)
      (State.liftFields_keeps (fun s => s.plan.generation) (fun _ _ => rfl) (fun _ _ _ => rfl) _ _)
  · rw [State.replanned, State.applyPlan_plan]
    refine (State.liftFields_keeps (fun s => (Map.get Lead.init s.plan.clusters k).index) (fun _ _ => rfl)
      (fun s j v => s.updLead_voff_index j k v) _ _).trans ?_
    exact (congrArg Lead.index (Map.get_upd_self _ _ k (fun x => x.replan (s.cluster k).ageing))).trans (Lead.replan_index _ _)

/-- A cluster that has moved by more than 500 ppm makes a new plan, which takes its index. -/
theorem State.replan_moved {s : State} {k : Nat} (h : s.moved k < -500 ∨ 500 < s.moved k) :
    ((s.replan [k]).cluster k).ageing = (s.cluster k).ageing ∧ (s.replan [k]).plan.generation = (s.plan.generation + 1) % 2 ^ 32 ∧
      (Map.get Lead.init (s.replan [k]).plan.clusters k).index = (s.cluster k).ageing := by
  obtain ⟨spec, heq⟩ := s.replan_eq [k]
  rw [s.due_singleton, if_pos h.symm, List.isEmpty_cons, if_neg Bool.false_ne_true] at heq
  rw [heq, State.post_keeps (State.cluster · k) (fun _ _ _ _ => rfl), State.post_keeps State.plan (fun _ _ _ _ => rfl)]
  exact s.replanned_one k

/-! ### The statement -/

section
variable {s : State} {k n : Nat} (ha : s.awake = true) (hm : s.measurable k = true)
include ha hm

/-- The first measurement of a cluster: its plan's change is the baseline, whatever the count. -/
theorem exec_ageingMeasurement_baseline (hr : (Map.get Lead.init s.plan.clusters k).r0 = 0)
    (hi : (Map.get Lead.init s.plan.clusters k).index = 0) : ∃ u, exec (.ageingMeasurement [(k, n)]) s = .next u ∧
      (u.cluster k).ageing = 0 ∧ u.plan.generation = (s.plan.generation + 1) % 2 ^ 32 ∧ ∀ j, Map.get Lead.init u.plan.clusters j =
        if j = k then { Map.get Lead.init s.plan.clusters k with r0 := 16 * n % 2 ^ 32 } else Map.get Lead.init s.plan.clusters j := by
  obtain ⟨hage, hplan⟩ := State.measure_baseline (n := n) hr
  have hlead := Map.get_upd Lead.init s.plan.clusters k (fun l => { l with r0 := 16 * n % 2 ^ 32 })
  have hindex := (congrArg Lead.index ((hlead k).trans (if_pos rfl))).trans hi
  have hexec := exec_ageingMeasurement_one (n := n) ha hm
  rw [if_pos hr] at hexec
  refine ⟨_, hexec.trans (congrArg Host.Outcome.next (State.replan_near ?_)), hage, ?_, ?_⟩
  · have hindex' : (Map.get Lead.init (s.measure (k, n)).plan.clusters k).index = 0 := hplan ▸ hindex
    have hmoved : (s.measure (k, n)).moved k = 0 - 0 := by rw [State.moved, hage, hindex']
    exact (show -500 ≤ (s.measure (k, n)).moved k ∧ (s.measure (k, n)).moved k ≤ 500 by rw [hmoved]; decide)
  · rw [hplan]
  · rw [hplan]
    exact hlead

/-- A later measurement: the re-plan meets the cluster with its new index, and nothing else has changed. -/
theorem exec_ageingMeasurement_index (hr : (Map.get Lead.init s.plan.clusters k).r0 ≠ 0) : ∃ (t : State) (i : Int),
    exec (.ageingMeasurement [(k, n)]) s = .next (t.replan [k]) ∧ t.plan = s.plan ∧ t.cluster k = { s.cluster k with ageing := i } ∧
      (∀ j, j ≠ k → t.cluster j = s.cluster j) ∧ t.moved k = i - (Map.get Lead.init s.plan.clusters k).index ∧
      2 * (i * (Map.get Lead.init s.plan.clusters k).r0
        - 1000000 * (((Map.get Lead.init s.plan.clusters k).r0 : Int) - 16 * n)).natAbs ≤ (Map.get Lead.init s.plan.clusters k).r0 := by
  have hexec := exec_ageingMeasurement_one (n := n) ha hm
  rw [if_neg hr, State.measure_index hr] at hexec
  have hself := State.cluster_updCluster s.draw.2 k
    (fun x => { x with ageing := ageingIndex (Map.get Lead.init s.plan.clusters k).r0 n s.draw.1 })
  exact ⟨_, _, hexec, rfl, hself, fun j hj => State.cluster_updCluster_ne _ _ hj, congrArg (fun x : Cluster => x.ageing - _) hself,
    ageingIndex_near hr n _⟩

end

/-- A window in which more than one correction happened is posted with their count (R535). -/
theorem exec_correctedWindowEnd_posts {s : State} (v : UnitRef) (mem : Nat) {count : Nat}
    (hcount : Map.get 0 s.mgmt.windows ((v.kind * 2 ^ 32 + v.n) * 16 + mem) = count) (h2 : 2 ≤ count) (hst : s.mgmt.started = true) :
    ∃ u, exec (.correctedWindowEnd v mem) s = .next u ∧
      u.mgmt.windows = Map.set 0 s.mgmt.windows ((v.kind * 2 ^ 32 + v.n) * 16 + mem) 0 ∧
      u.mgmt.seqNext = s.mgmt.seqNext + 1 ∧ u.cores = s.cores ∧ u.formes = s.formes ∧ ∃ b : Rec, u.mgmt.held.getLast? = some b ∧
        bytesAt b.bytes 4 1 = 0 ∧ bytesAt b.bytes 5 1 = 1 ∧ bytesAt b.bytes 20 4 = v.n % 2 ^ 32 ∧ bytesAt b.bytes 48 4 = count % 2 ^ 32 := by
  obtain ⟨loc, heq⟩ := execCorrectedWindowEnd_eq s v mem
  simp only [hcount, if_pos h2] at heq
  refine ⟨_, heq, ?_⟩
  rw [State.post_keeps State.cores (fun _ _ _ _ => rfl), State.post_keeps State.formes (fun _ _ _ _ => rfl)]
  generalize ht : State.draw _ = t
  have hst' : t.2.mgmt.started = true := ht ▸ hst
  obtain ⟨mc, hc⟩ := State.post_chained hst' (correctedSpec v.kind v.n mem loc count)
  obtain ⟨b, hlast, hb⟩ := hc.held
  obtain ⟨hkind, hcls, _, hunit, _, _, hn⟩ := correctedSpec_bytes v.kind v.n mem loc count t.2.mgmt.seqNext mc
  rw [← hb] at hkind hcls hunit hn
  rw [hc.windows, hc.seqNext]
  subst ht
  exact ⟨rfl, rfl, rfl, rfl, b, hlast, hkind, hcls, hunit, hn⟩

/-- The first correction of the management processor's RAM in a window is posted, and behind a pending signature nothing else is. -/
theorem exec_checkpoint_ram {s : State} (hst : s.mgmt.started = true) (hp : s.mgmt.checkPending = true)
    (hw : Map.get 0 s.mgmt.windows ((9 * 2 ^ 32 + 0) * 16 + 6) = 0) (loc : Nat) :
    ∃ (u : State) (b : Rec), exec (.checkpoint [loc]) s = .next u ∧ u.mgmt.seqNext = s.mgmt.seqNext + 1 ∧
      u.mgmt.held.getLast? = some b ∧ bytesAt b.bytes 5 1 = 1 ∧ bytesAt b.bytes 17 1 = 9 ∧ bytesAt b.bytes 32 1 = 6 ∧
      bytesAt b.bytes 40 8 = loc % 2 ^ 64 ∧ u.cores = s.cores ∧ u.formes = s.formes := by
  obtain ⟨w, hnote⟩ := State.noteCorrected_first hw loc
  obtain ⟨t, ht⟩ : ∃ t : State, t = { s with mgmt := { s.mgmt with windows := w } } := ⟨_, rfl⟩
  rw [← ht] at hnote
  obtain ⟨mc, hc⟩ := State.post_chained (s := t) (by rw [ht]; exact hst) (correctedSpec 9 0 6 loc 1)
  obtain ⟨b, hlast, hb⟩ := hc.held
  obtain ⟨_, hcls, hunit, _, hmem, hloc, _⟩ := correctedSpec_bytes 9 0 6 loc 1 t.mgmt.seqNext mc
  rw [← hb] at hcls hunit hmem hloc
  obtain ⟨due, htrig⟩ := State.checkpointTrigger_pending (hc.checkPending.trans (by rw [ht]; exact hp))
  refine ⟨_, b, (congrArg (fun x : State => Host.Outcome.next x.checkpointTrigger) hnote).trans (congrArg Host.Outcome.next htrig),
    ?_, hlast, hcls, hunit, hmem, hloc, ?_, ?_⟩
  · exact hc.seqNext.trans (by rw [ht])
  · exact (State.post_keeps State.cores (fun _ _ _ _ => rfl) _ _).trans (by rw [ht])
  · exact (State.post_keeps State.formes (fun _ _ _ _ => rfl) _ _).trans (by rw [ht])

/-- The oldest operation of the assist ends as its kind says (R575). -/
theorem exec_signatureComplete_cons {s : State} {o : SigOp} {rest : List SigOp} (h : s.mgmt.sigQueue = o :: rest) :
    exec .signatureComplete s = .next (if o.kind = 0 then State.checkpointSigned { s with mgmt := { s.mgmt with sigQueue := rest } } o
      else State.documentSigned { s with mgmt := { s.mgmt with sigQueue := rest } } o) := by
  show execSignatureComplete s = _
  rw [execSignatureComplete, h]

/-- Settles O53: a measurement is followed by the re-plan that its index asks for, a correction window and a checkpoint by the record that
joins the chain, and a signature by what it ends. -/
theorem ageingAndChain : Obligations.AgeingAndChain := by
  refine ⟨fun s k n ha hm => ⟨exec_ageingMeasurement_baseline ha hm, fun hr => ?_⟩, fun s ms ha => ?_,
    fun s v mem => ⟨fun hn => ?_, exec_correctedWindowEnd_posts v mem rfl⟩,
    fun s => ⟨fun loc hst hp hw => exec_checkpoint_ram hst hp hw loc, fun hdue hwaits => ?_, fun hwaits => ?_, fun hdue => ?_⟩,
    fun s => ⟨fun hq => ?_, fun o rest hq => ⟨fun hk hc hd => ?_, fun hk c hcmd => ?_⟩⟩⟩
  · obtain ⟨t, i, hexec, hplan, hself, hothers, hmoved, hnear⟩ := exec_ageingMeasurement_index (n := n) ha hm hr
    refine ⟨fun hall => ?_, fun hall => ?_⟩
    · rw [State.replan_near (hmoved ▸ hall i hnear)] at hexec
      exact ⟨t, i, hexec, hnear, hplan, hself, hothers⟩
    · obtain ⟨hage, hgen, hindex⟩ := State.replan_moved (hmoved ▸ hall i hnear)
      rw [hself] at hage hindex
      rw [hplan] at hgen
      exact ⟨_, i, hexec, hnear, hage, hgen, hindex⟩
  · exact congrArg Host.Outcome.next (if_neg (by rw [ha]; decide))
  · obtain ⟨_, heq⟩ := execCorrectedWindowEnd_eq s v mem
    exact heq.trans (congrArg Host.Outcome.next (if_neg (Nat.not_le.2 hn)))
  · have hnone : s.tryCheckpoint 1 = s := if_neg (fun ⟨hst, hp, hc⟩ => hdue ⟨hst, Bool.not_eq_true _ ▸ hp, hc⟩)
    exact congrArg Host.Outcome.next ((if_neg hwaits).trans hnone)
  · exact congrArg Host.Outcome.next (if_pos hwaits)
  · obtain ⟨hst, hp, hc⟩ := hdue
    have hwaits : ¬ (s.mgmt.started = true ∧ s.mgmt.checkPending = true ∧ 1 ≤ s.mgmt.sinceCheck) := fun ⟨_, hp', _⟩ => by simp [hp] at hp'
    have htry : s.tryCheckpoint 1 = s.checkpointNow := if_pos ⟨hst, by simp [hp], hc⟩
    obtain ⟨b, o, hseq, hpend, hsince, hlast, hkind, hdrop, hqueue, ho, hchain⟩ := State.checkpointNow_chained hst
    exact ⟨_, b, o, congrArg Host.Outcome.next ((if_neg hwaits).trans htry), hseq, hpend, hsince, hlast, hkind, hdrop, hqueue, ho, hchain,
      s.checkpointNow_keeps State.cores (fun _ _ _ _ => rfl), s.checkpointNow_keeps State.formes (fun _ _ _ _ => rfl)⟩
  · show execSignatureComplete s = _
    rw [execSignatureComplete, hq]
  · obtain ⟨l, out, heq, hmem⟩ := State.checkpointSigned_kept (s := { s with mgmt := { s.mgmt with sigQueue := rest } }) o hc hd
    have hexec := exec_signatureComplete_cons hq
    rw [if_pos hk, heq] at hexec
    exact ⟨_, hexec, rfl, rfl, rfl, hmem, rfl⟩
  · have hexec := exec_signatureComplete_cons hq
    have hcmd' : (State.ring { s with mgmt := { s.mgmt with sigQueue := rest } } o.n).cmd o.sq = some c := hcmd
    rw [if_neg hk, State.documentSigned, hcmd'] at hexec
    exact hexec

end Sys2Proof.Machine
end

section
/-! PROOFS. Issue, control and scalar instructions (R165-R172): the command of every row issues the word of its row, what a word that
executes, stops or sends comes to, what the scalar functions compute, and the statements about them. -/

namespace Sys2Proof.Machine

/-! ### Issue (R164, R165) -/

/-- Every command of the rows of a core's instructions issues the word of its row. -/
theorem exec_coreRows : ∀ r ∈ coreRows, ∀ (c : Nat) (o : Obs) (s : State), ∃ f, exec (r.2 c o) s = .next (s.issue c r.1 o f) := by
  simp only [coreRows, List.forall_mem_cons, List.not_mem_nil, false_implies, implies_true, and_true]
  and_intros
  all_goals exact fun c o s => ⟨_, rfl⟩

/-- A core that fetches a word runs a block. -/
theorem State.fetches.st_run {s : State} {c row w : Nat} (h : s.fetches c row w) : (s.core c).st = .run := by
  obtain ⟨hi, -⟩ := h
  simp only [State.issues, Bool.and_eq_true, decide_eq_true_eq] at hi
  obtain ⟨⟨hst, -⟩, -⟩ := hi
  exact hst

/-- What a stop leaves: the registers and the core store. -/
theorem Core.stopped_frame (x : Core) (ix : Nat) (e : Stop) : (x.stopped ix e).st = .stopped ∧ (x.stopped ix e).s = x.s ∧
    (x.stopped ix e).v = x.v ∧ (x.stopped ix e).store = x.store := by
  unfold Core.stopped
  split <;> exact ⟨rfl, rfl, rfl, rfl⟩

/-- What a core that runs records when it stops (R104, R118). -/
theorem Core.stopped_records {x : Core} (h : x.st = .run) (ix : Nat) (e : Stop) :
    (x.stopped ix e).fault = BitVec.ofNat 32 (e.unit * 2 ^ 26 + ix * 2 ^ 14 + x.block * 2 ^ 8 + e.code) ∧
      (x.stopped ix e).faultInfo = BitVec.ofNat 32 e.info := by
  have hn : ¬ x.st = .stopped := by rw [h]; decide
  unfold Core.stopped
  rw [if_neg hn]
  exact ⟨rfl, rfl⟩

/-- Settles O3: each command of a core is the issue of its row's word, which skips, stops or leaves alone what it does not execute. -/
theorem issueRules : Obligations.IssueRules := by
  unfold Obligations.IssueRules
  refine ⟨fun x w => rfl, ?_, ?_, ?_⟩
  · intro r hr s c w hf hl hp
    obtain ⟨f, hexec⟩ := exec_coreRows r hr c Obs.quiet s
    rw [hexec, State.issue_skip hf hl hp f]
    rfl
  · intro r hr s c w hf hl hd
    obtain ⟨f, hexec⟩ := exec_coreRows r hr c Obs.quiet s
    have hcore := State.issue_illegal hf hl hd f
    obtain ⟨hst, hs, hv, hstore⟩ := (s.core c).stopped_frame (s.core c).pc ⟨1, w, 0⟩
    obtain ⟨hfault, hinfo⟩ := Core.stopped_records hf.st_run (s.core c).pc ⟨1, w, 0⟩
    refine ⟨_, hexec, ?_⟩
    rw [hcore, hst, hs, hv, hstore, hfault, hinfo]
    simp
  · intro r hr s c w row hf hl hne
    obtain ⟨f, hexec⟩ := exec_coreRows r hr c Obs.quiet s
    rw [hexec, State.issue_other hf hl hne f]

/-! ### What an executed word comes to -/

@[simp] theorem Core.wrS_nc (x : Core) (r : Nat) (v : Word) : (x.wrS r v).nc = x.nc := by
  unfold Core.wrS; split <;> rfl
@[simp] theorem Core.wrS_pc (x : Core) (r : Nat) (v : Word) : (x.wrS r v).pc = x.pc := by
  unfold Core.wrS; split <;> rfl
@[simp] theorem Core.wrP_nc (x : Core) (r : Nat) (v : Bool) : (x.wrP r v).nc = x.nc := by
  unfold Core.wrP; split <;> rfl

/-- A branch that is not taken leaves the core at its index. -/
theorem Core.branch_unless {p : Prop} [Decidable p] (y : Core) {n : Nat} (target : Nat) (h : y.pc = n) :
    { y with pc := if p then n else target } = if p then y else { y with pc := target } := by
  subst h
  split <;> rfl

section
variable {s : State} {i : Instr} {c row w : Nat} {f : Nat → Cx → Cx}

/-- A command whose word only changes its core. -/
theorem exec_pure (hi : exec i s = .next (s.issue c row Obs.quiet f)) (h : s.runs c row w) {y : Core}
    (hf : f w (Cx.start c (s.core c).advance s.free) = Cx.start c y s.free) (hn : y.nc = (s.core c).nc) :
    exec i s = .next (s.setCore c y) := by
  rw [hi, State.issue_pure h hf hn]

/-- A command whose word writes one scalar register. -/
theorem exec_wrS (hi : exec i s = .next (s.issue c row Obs.quiet f)) (h : s.runs c row w) {d : Nat} {v : Word}
    (hf : f w (Cx.start c (s.core c).advance s.free) = Cx.start c ((s.core c).advance.wrS d v) s.free) :
    exec i s = .next (s.setCore c ((s.core c).advance.wrS d v)) :=
  exec_pure hi h hf (Core.wrS_nc _ d v)

/-- A command whose word writes one predicate register. -/
theorem exec_wrP (hi : exec i s = .next (s.issue c row Obs.quiet f)) (h : s.runs c row w) {d : Nat} {v : Bool}
    (hf : f w (Cx.start c (s.core c).advance s.free) = Cx.start c ((s.core c).advance.wrP d v) s.free) :
    exec i s = .next (s.setCore c ((s.core c).advance.wrP d v)) :=
  exec_pure hi h hf (Core.wrP_nc _ d v)

end

/-- Settles O4: each control instruction only changes its core. -/
theorem controlInstructions : Obligations.ControlInstructions := by
  unfold Obligations.ControlInstructions
  intro s c w x
  refine ⟨fun h => exec_pure rfl h rfl rfl, fun h => exec_pure rfl h rfl rfl, fun h => exec_pure rfl h rfl rfl,
    fun h => exec_pure rfl h rfl rfl, fun h => exec_pure rfl h rfl rfl, fun h => ?_⟩
  refine (exec_pure rfl h rfl ?_).trans (congrArg (fun y => Host.Outcome.next (s.setCore c y)) ?_)
  · exact Core.wrS_nc _ _ _
  · exact Core.branch_unless _ _ (Core.wrS_pc _ _ _)

/-! ### The scalar functions (R169, R170) -/

/-- The leading zeros of a word are the places above its highest one. -/
theorem clz32_spec (a : Word) : clz32 a ≤ 32 ∧ a.toNat < 2 ^ (32 - clz32 a) ∧ (clz32 a < 32 → 2 ^ (31 - clz32 a) ≤ a.toNat) := by
  unfold clz32
  split
  case isTrue h => simp [h]
  case isFalse h =>
    have hne : a.toNat ≠ 0 := fun h0 => h (BitVec.eq_of_toNat_eq h0)
    have hlog : Nat.log2 a.toNat < 32 := (Nat.log2_lt hne).2 a.isLt
    have hup : 32 - (31 - Nat.log2 a.toNat) = Nat.log2 a.toNat + 1 := by omega
    have hlow : 31 - (31 - Nat.log2 a.toNat) = Nat.log2 a.toNat := by omega
    rw [hup, hlow]
    exact ⟨by omega, Nat.lt_log2_self, fun _ => Nat.log2_self_le hne⟩

/-- The high half of a signed product fits a word. -/
theorem toInt_ofInt_mulHigh (a b : Word) : (BitVec.ofInt 32 (a.toInt * b.toInt / 2 ^ 32)).toInt = a.toInt * b.toInt / 2 ^ 32 := by
  have ha := a.le_two_mul_toInt
  have ha' := a.two_mul_toInt_lt
  have hb := b.le_two_mul_toInt
  have hb' := b.two_mul_toInt_lt
  have habs : (a.toInt * b.toInt).natAbs ≤ 2 ^ 31 * 2 ^ 31 := by
    rw [Int.natAbs_mul]
    exact Nat.mul_le_mul (by omega) (by omega)
  rw [BitVec.toInt_ofInt]
  exact Int.bmod_eq_of_le (by omega) (by omega)

/-- The value of each function of SALU. -/
theorem saluFn_spec (fn : Nat) (a b : Word) :
    (fn = 0 → saluFn fn a b = a + b) ∧ (fn = 1 → saluFn fn a b = a - b) ∧ (fn = 2 → saluFn fn a b = a &&& b) ∧
    (fn = 3 → saluFn fn a b = a ||| b) ∧ (fn = 4 → saluFn fn a b = a ^^^ b) ∧ (fn = 5 → saluFn fn a b = a <<< (b.toNat % 32)) ∧
    (fn = 6 → saluFn fn a b = a >>> (b.toNat % 32)) ∧ (fn = 7 → saluFn fn a b = a.sshiftRight (b.toNat % 32)) ∧
    (fn = 8 → (saluFn fn a b).toNat = a.toNat * b.toNat % 2 ^ 32) ∧
    (fn = 9 → (saluFn fn a b).toInt = a.toInt * b.toInt / 2 ^ 32) ∧
    (fn = 10 → (saluFn fn a b).toNat = a.toNat * b.toNat / 2 ^ 32) ∧
    (fn = 11 → (saluFn fn a b).toInt = min a.toInt b.toInt) ∧ (fn = 12 → (saluFn fn a b).toInt = max a.toInt b.toInt) ∧
    (fn = 13 → (saluFn fn a b).toNat = min a.toNat b.toNat) ∧ (fn = 14 → (saluFn fn a b).toNat = max a.toNat b.toNat) ∧
    (fn = 15 → (saluFn fn a b).toNat ≤ 32 ∧ a.toNat < 2 ^ (32 - (saluFn fn a b).toNat) ∧
      ((saluFn fn a b).toNat < 32 → 2 ^ (31 - (saluFn fn a b).toNat) ≤ a.toNat)) := by
  refine ⟨?_, ?_, ?_, ?_, ?_, ?_, ?_, ?_, ?_, ?_, ?_, ?_, ?_, ?_, ?_, ?_⟩ <;> rintro rfl
  iterate 8 · rfl
  · exact BitVec.toNat_mul a b
  · exact toInt_ofInt_mulHigh a b
  · have hlt : a.toNat * b.toNat < 2 ^ 32 * 2 ^ 32 := Nat.mul_lt_mul'' a.isLt b.isLt
    exact (BitVec.toNat_ofNat _ _).trans (Nat.mod_eq_of_lt (Nat.div_lt_of_lt_mul hlt))
  · exact (apply_ite BitVec.toInt _ a b).trans (Int.min_def _ _).symm
  · exact (apply_ite BitVec.toInt _ b a).trans (Int.max_def _ _).symm
  · exact (apply_ite BitVec.toNat _ a b).trans (Nat.min_def ..).symm
  · exact (apply_ite BitVec.toNat _ b a).trans (Nat.max_def ..).symm
  · obtain ⟨hle, hlt, hge⟩ := clz32_spec a
    have hr : (saluFn 15 a b).toNat = clz32 a := (BitVec.toNat_ofNat _ _).trans (Nat.mod_eq_of_lt (by omega))
    rw [hr]
    exact ⟨hle, hlt, hge⟩

/-- The value of each function of PLOG. -/
theorem plogFn_spec (fn : Nat) (p q : Bool) :
    (fn = 0 → plogFn fn p q = (p && q)) ∧ (fn = 1 → plogFn fn p q = (p || q)) ∧ (fn = 2 → plogFn fn p q = (p ^^ q)) ∧
    (fn = 3 → plogFn fn p q = (p && !q)) ∧ (fn = 4 → plogFn fn p q = p) ∧ (fn = 5 → plogFn fn p q = !p) := by
  refine ⟨?_, ?_, ?_, ?_, ?_, ?_⟩ <;> rintro rfl <;> rfl

/-- When each condition of CMP and CMPI holds. -/
theorem condFn_spec (k : Nat) (a b : Word) :
    (k = 0 → (condFn k a b = true ↔ a = b)) ∧ (k = 1 → (condFn k a b = true ↔ a ≠ b)) ∧
    (k = 2 → (condFn k a b = true ↔ a.toInt < b.toInt)) ∧ (k = 3 → (condFn k a b = true ↔ b.toInt ≤ a.toInt)) ∧
    (k = 4 → (condFn k a b = true ↔ a.toNat < b.toNat)) ∧ (k = 5 → (condFn k a b = true ↔ b.toNat ≤ a.toNat)) := by
  refine ⟨?_, ?_, ?_, ?_, ?_, ?_⟩ <;> rintro rfl
  · exact beq_iff_eq
  · exact bne_iff_ne
  all_goals exact decide_eq_true_iff

/-- The value of each function of SHI. -/
theorem fnShi_spec (w : Nat) (a : Word) :
    (bits w 6 5 = 0 → fnShi w a = a <<< bits w 4 0) ∧ (bits w 6 5 = 1 → fnShi w a = a >>> bits w 4 0) ∧
    (bits w 6 5 = 2 → fnShi w a = a.sshiftRight (bits w 4 0)) := by
  refine ⟨?_, ?_, ?_⟩ <;> intro h <;> simp [fnShi, h]

/-- A field of a word is below its power of two. -/
theorem bits_lt (w hi lo : Nat) : bits w hi lo < 2 ^ (hi + 1 - lo) := Nat.mod_lt _ (Nat.two_pow_pos _)

/-- MOVH replaces the upper half and keeps the lower. -/
theorem toNat_movh (w : Nat) (a : Word) : (BitVec.ofNat 32 (fImm16 w * 2 ^ 16 + a.toNat % 2 ^ 16)).toNat / 2 ^ 16 = fImm16 w ∧
    (BitVec.ofNat 32 (fImm16 w * 2 ^ 16 + a.toNat % 2 ^ 16)).toNat % 2 ^ 16 = a.toNat % 2 ^ 16 := by
  have h : fImm16 w < 2 ^ 16 := bits_lt w 15 0
  rw [BitVec.toNat_ofNat]
  omega

/-- Settles O5: each instruction writes one register, with the value of its function. -/
theorem scalarInstructions : Obligations.ScalarInstructions := by
  unfold Obligations.ScalarInstructions
  constructor
  · intro s c w x d a b fn imm n
    exact ⟨fun h => ⟨_, exec_wrS rfl h rfl, saluFn_spec _ a b⟩, fun h => exec_wrS rfl h rfl, fun h => exec_wrS rfl h rfl,
      fun h => exec_wrS rfl h rfl, fun h => exec_wrS rfl h rfl, fun h => ⟨_, exec_wrS rfl h rfl, fnShi_spec w a⟩,
      fun h => exec_wrS rfl h rfl, fun h => ⟨_, exec_wrS rfl h rfl, toNat_movh w ((s.core c).rdS d)⟩⟩
  · intro s c w x d holds
    exact ⟨fun h => ⟨_, exec_wrP rfl h rfl, plogFn_spec _ _ _⟩, fun h => ⟨_, exec_wrP rfl h rfl, condFn_spec _ _ _⟩,
      fun h => ⟨_, exec_wrP rfl h rfl, condFn_spec _ _ _⟩⟩

end Sys2Proof.Machine
end

section
/-! PROOFS. CSR, CSW, BEN and SCFG (R107-R120, R173, R183, R559): what an instruction that sends, draws or stops comes to, what each access
of a register of the core does, and the statement about them. -/

namespace Sys2Proof.Machine

/-! ### Words that send, draw or stop -/

/-- A step of a core that reports nothing, stops on no fault and tells of no numeric event: the core, its draws and its messages. -/
theorem State.settleCore_sends (s : State) (c ix : Nat) {x : Cx} (he : x.evs = []) (hs : x.stop = none)
    (hn : x.tally = true → x.core.nc = (s.core c).nc) :
    s.settleCore c ix x = State.forAll { s.setCore c x.core with free := x.free } x.msgs (fun t m => t.arrive c 4 m) := by
  have hquiet : (x.tally && x.core.nc != (s.core c).nc) = false := by
    rw [Bool.and_eq_false_imp]
    exact fun ht => by rw [hn ht, bne_self_eq_false]
  unfold State.settleCore
  simp only [he, hs, hquiet, firstMismatch]
  cases State.formeOf (State.forAll { s.setCore c x.core with free := x.free } x.msgs (fun t m => t.arrive c 4 m)) c <;> exact ite_self _

/-- Messages that come to a router's input change no core. -/
theorem State.core_forAll_arrive (s : State) (c k : Nat) (l : List Msg) : (s.forAll l (fun t m => t.arrive c 4 m)).core k = s.core k :=
  State.forAll_keeps (fun t => t.core k) l (f := fun t m => t.arrive c 4 m) (fun _ _ => rfl) s

section
variable {s : State} {i : Instr} {c row w : Nat} {f : Nat → Cx → Cx}

/-- A command whose word changes its core, draws and sends. -/
theorem exec_sends (hi : exec i s = .next (s.issue c row Obs.quiet f)) (h : s.runs c row w) {x : Cx}
    (hf : f w (Cx.start c (s.core c).advance s.free) = x) (he : x.evs = []) (hs : x.stop = none)
    (hn : x.tally = true → x.core.nc = (s.core c).nc) :
    exec i s = .next (State.forAll { s.setCore c x.core with free := x.free } x.msgs (fun t m => t.arrive c 4 m)) := by
  rw [hi, s.issue_runs h, hf, s.settleCore_sends c _ he hs hn]

/-- A command whose word changes its core and draws. -/
theorem exec_draws (hi : exec i s = .next (s.issue c row Obs.quiet f)) (h : s.runs c row w) {y : Core} {n : Nat}
    (hf : f w (Cx.start c (s.core c).advance s.free) = Cx.start c y n) (hn : y.nc = (s.core c).nc) :
    exec i s = .next { s.setCore c y with free := n } :=
  exec_sends hi h hf rfl rfl (fun _ => hn)

/-- A word that its instruction finds illegal stops the core with ILLEGAL (R104, R118). -/
theorem exec_illegal (hi : exec i s = .next (s.issue c row Obs.quiet f)) (h : s.runs c row w)
    (hf : f w (Cx.start c (s.core c).advance s.free) = (Cx.start c (s.core c).advance s.free).halt FaultCode.illegal w Unit.scalar)
    (hd : s.NoPending) :
    ∃ t, exec i s = .next t ∧ (t.core c).st = .stopped ∧ wordAt (t.core c).fault 7 0 = 1 ∧ (t.core c).faultInfo = BitVec.ofNat 32 w := by
  obtain ⟨hcore, -⟩ := State.issue_stop h hd (n := s.free) hf rfl
  obtain ⟨hst, -⟩ := (s.core c).advance.stopped_frame (s.core c).pc ⟨1, w, 0⟩
  obtain ⟨hfault, hinfo⟩ := Core.stopped_records (x := (s.core c).advance) h.1.st_run (s.core c).pc ⟨1, w, 0⟩
  refine ⟨_, hi, ?_, ?_, ?_⟩
  · rw [hcore, hst]
  · rw [hcore, hfault, wordAt, bits, BitVec.toNat_ofNat]
    simp only [Nat.shiftRight_zero]
    omega
  · rw [hcore, hinfo]

end

/-! ### Registers and tables -/

theorem Core.rdS_wrS_self {r : Nat} (hr : r ≠ 0) (x : Core) (v : Word) : (x.wrS r v).rdS r = v := by
  simp [Core.wrS, Core.rdS, hr]

theorem Core.rdS_wrS_ne {r q : Nat} (h : q ≠ r) (x : Core) (v : Word) : (x.wrS r v).rdS q = x.rdS q := by
  unfold Core.wrS
  split
  · rfl
  · simp only [Core.rdS, Map.get_set_ne 0 x.s v h]

@[simp] theorem Core.wrS_sc (x : Core) (r : Nat) (v : Word) : (x.wrS r v).sc = x.sc := by
  unfold Core.wrS; split <;> rfl

/-- A write of a scalar register changes the scalar registers only. -/
theorem Core.wrS_frame (x : Core) (r : Nat) (v : Word) : x.wrS r v = { x with s := (x.wrS r v).s } := by
  unfold Core.wrS; split <;> rfl

theorem Map.erase_insert {α : Type} (m : Map α) (i : Nat) (v : α) : Map.erase (Map.insert m i v) i = Map.erase m i := by
  induction m with
  | nil => simp [Map.erase, Map.insert]
  | cons e t ih =>
    unfold Map.insert
    split
    · simp [Map.erase]
    · simp only [Map.erase, List.filter_cons] at ih ⊢
      rw [ih]

theorem Map.erase_erase {α : Type} (m : Map α) (i : Nat) : Map.erase (Map.erase m i) i = Map.erase m i := by
  simp [Map.erase, List.filter_filter]

/-- Of two writes at one key the second stands. -/
theorem Map.set_set {α : Type} [DecidableEq α] (d : α) (m : Map α) (i : Nat) (v u : α) : Map.set d (Map.set d m i v) i u = Map.set d m i u := by
  have h : Map.erase (Map.set d m i v) i = Map.erase m i := by
    unfold Map.set
    split
    · exact Map.erase_erase m i
    · rw [Map.erase_insert, Map.erase_erase]
  rw [Map.set, h, Map.set]

@[simp] theorem Core.steer_updSteer (x : Core) (n : Nat) (f : Steer → Steer) : (x.updSteer n f).steer n = f (x.steer n) :=
  Map.get_upd_self _ _ _ _

theorem Core.updSteer_updSteer (x : Core) (n : Nat) (f g : Steer → Steer) :
    (x.updSteer n f).updSteer n g = x.updSteer n (fun _ => g (f (x.steer n))) := by
  have h : Map.upd Steer.init (x.updSteer n f).steers n g = Map.upd Steer.init x.steers n (fun _ => g (f (x.steer n))) := by
    rw [Map.upd, show Map.get Steer.init (x.updSteer n f).steers n = f (x.steer n) from x.steer_updSteer n f]
    exact Map.set_set _ _ _ _ _
  exact congrArg (fun m => { x with steers := m }) h

/-! ### CSR (R112, R173, R559) -/

/-- A core whose counter of ic has advanced for a read, with the half that a _LO register latches. -/
def Core.readIc (x : Core) (d i : Nat) : Core :=
  let y := x.advanceIc d i
  if i < 0x206 then { y with latch := Map.set 0 y.latch (i + 1) (BitVec.ofNat 32 (Map.get 0 y.sc (i + 1))) } else y

theorem Core.readIc_frame (x : Core) (d i : Nat) : x.readIc d i = { x with sc := (x.readIc d i).sc, latch := (x.readIc d i).latch } := by
  unfold Core.readIc Core.advanceIc
  split <;> rfl

theorem Core.wrS_readIc_frame (x : Core) (d i r : Nat) (v : Word) : (x.readIc d i).wrS r v =
    { x with s := ((x.readIc d i).wrS r v).s, sc := ((x.readIc d i).wrS r v).sc, latch := ((x.readIc d i).wrS r v).latch } := by
  rw [Core.wrS_frame, Core.readIc_frame]

section
variable {i : Nat} (x : Cx) (shift : Nat)

theorem Cx.readCs_state (h3 : i = 3) : x.readCs shift i = (x.core.stateWord x.free, { x with free := x.free + 1 }) := if_pos h3

theorem Cx.readCs_counter (hi : icCounter i = true) (hh : ¬ (i < 0x206 ∧ i % 2 = 1)) (h3 : i ≠ 3) :
    x.readCs shift i = (Map.get 0 (x.core.readIc x.free i).sc i, { x with core := x.core.readIc x.free i, free := x.free + 1 }) := by
  unfold Cx.readCs Core.readIc
  rw [if_neg h3, if_pos hi, if_neg hh]
  split <;> rfl

theorem Cx.readCs_latched (hi : icCounter i = true) (hh : i < 0x206 ∧ i % 2 = 1) (h3 : i ≠ 3) :
    x.readCs shift i = ((Map.get 0 x.core.latch i).toNat, x) := by
  rw [Cx.readCs, if_neg h3, if_pos hi, if_pos hh]

theorem Cx.readCs_value (hi : icCounter i = false) (h3 : i ≠ 3) : x.readCs shift i = (x.core.csValue x.me shift i, x) := by
  rw [Cx.readCs, if_neg h3, if_neg (by rw [hi]; decide)]

end

/-- What CSR makes of what it reads. -/
theorem opCsr_of_readCs {shift w n : Nat} {x y : Cx} (h : x.readCs shift (fIndex w) = (n, y)) :
    opCsr shift w x = y.mapCore (fun k => k.wrS (fD w) (BitVec.ofNat 32 n)) := by
  rw [opCsr, h]

section
variable {s : State} {c w : Nat} (h : s.runs c 0x12 w)
include h

theorem exec_csr_state (hi : fIndex w = 0x003) : exec (.csr c Obs.quiet) s =
    .next { s.setCore c ((s.core c).advance.wrS (fD w) (BitVec.ofNat 32 ((s.core c).advance.stateWord s.free))) with free := s.free + 1 } :=
  exec_draws rfl h (opCsr_of_readCs (Cx.readCs_state _ _ hi)) (Core.wrS_nc _ _ _)

theorem exec_csr_counter (hi : icCounter (fIndex w) = true) (hh : ¬ (fIndex w < 0x206 ∧ fIndex w % 2 = 1)) :
    ∃ y, exec (.csr c Obs.quiet) s = .next { s.setCore c y with free := s.free + 1 } ∧
      (fD w ≠ 0 → (y.rdS (fD w)).toNat = Map.get 0 y.sc (fIndex w) % 2 ^ 32) ∧
      y = { (s.core c).advance with s := y.s, sc := y.sc, latch := y.latch } ∧ ∀ r, r ≠ fD w → y.rdS r = (s.core c).advance.rdS r := by
  have h3 : fIndex w ≠ 3 := fun h3 => by rw [h3] at hi; exact absurd hi (by decide)
  refine ⟨_, exec_draws (y := ((s.core c).advance.readIc s.free (fIndex w)).wrS (fD w) _) rfl h
    (opCsr_of_readCs (Cx.readCs_counter _ _ hi hh h3)) ?_, fun hd => ?_, Core.wrS_readIc_frame .., fun r hr => ?_⟩
  · rw [Core.wrS_nc, Core.readIc_frame]
    rfl
  · rw [Core.rdS_wrS_self hd, BitVec.toNat_ofNat, Core.wrS_sc]
    rfl
  · rw [Core.rdS_wrS_ne hr, Core.readIc_frame]
    rfl

theorem exec_csr_latched (hi : fIndex w = 0x201 ∨ fIndex w = 0x203 ∨ fIndex w = 0x205) : exec (.csr c Obs.quiet) s =
    .next (s.setCore c ((s.core c).advance.wrS (fD w) (Map.get 0 (s.core c).latch (fIndex w)))) := by
  have hr := Cx.readCs_latched (i := fIndex w) (Cx.start c (s.core c).advance s.free) (s.shiftOf c)
    (by rcases hi with hi | hi | hi <;> rw [hi] <;> decide) (by omega) (by omega)
  refine exec_wrS rfl h ((opCsr_of_readCs hr).trans ?_)
  rw [BitVec.ofNat_toNat, BitVec.setWidth_eq]
  rfl

theorem exec_csr_value (hi : icCounter (fIndex w) = false) (h3 : fIndex w ≠ 0x003) : exec (.csr c Obs.quiet) s =
    .next (s.setCore c ((s.core c).advance.wrS (fD w) (BitVec.ofNat 32 ((s.core c).advance.csValue c (s.shiftOf c) (fIndex w))))) :=
  exec_wrS rfl h (opCsr_of_readCs (Cx.readCs_value _ _ hi h3))

end

/-! ### CSW (R107, R113-R120, R173) -/

section
variable {s : State} {c w : Nat} (h : s.runs c 0x13 w)
include h

theorem exec_csw (hr : csReserved (fIndex w) ((s.core c).rdS (fA w)) = false) : exec (.csw c Obs.quiet) s =
    .next (s.setCore c ((s.core c).advance.writeCs (fIndex w) ((s.core c).rdS (fA w)))) :=
  exec_sends rfl h (x := { Cx.start c ((s.core c).advance.writeCs (fIndex w) ((s.core c).rdS (fA w))) s.free with tally := false })
    (if_neg (fun hr' => Bool.false_ne_true (hr.symm.trans hr'))) rfl rfl (fun ht => absurd ht Bool.false_ne_true)

theorem exec_csw_reserved (hr : csReserved (fIndex w) ((s.core c).rdS (fA w)) = true) (hd : s.NoPending) :
    ∃ t, exec (.csw c Obs.quiet) s = .next t ∧ (t.core c).st = .stopped :=
  let ⟨t, hexec, hst, _⟩ := exec_illegal (i := .csw c Obs.quiet) rfl h (if_pos hr) hd
  ⟨t, hexec, hst⟩

end

/-- A CSW of a scratch register leaves its value there. -/
theorem Core.writeCs_scratch (x : Core) (v : Word) : ∀ n < 4, Map.get 0 (x.writeCs (0x01C + n) v).scratch n = v := by
  intro n hn
  have h : x.writeCs (0x01C + n) v = { x with scratch := Map.set 0 x.scratch (0x01C + n - 0x01C) v } := by
    obtain rfl | rfl | rfl | rfl : n = 0 ∨ n = 1 ∨ n = 2 ∨ n = 3 := by omega
    all_goals rfl
  rw [h, Nat.add_sub_cancel_left]
  exact Map.get_set_self _ _ _ _

/-- A CSW of an index past the registers of a core is ignored. -/
theorem Core.writeCs_beyond (x : Core) {i : Nat} (hi : 0x3C0 ≤ i) (v : Word) : x.writeCs i v = x := by
  have hic : icCounter i = false := by simp only [icCounter, Bool.or_eq_false_iff, Bool.and_eq_false_iff, decide_eq_false_iff_not]; omega
  unfold Core.writeCs
  rw [if_neg (by omega), if_neg (by omega), if_neg (by omega), if_neg (by omega), if_neg (by omega), if_neg (by omega),
    if_neg (by omega), if_neg (by omega), if_neg (by omega), if_neg (by omega), if_neg (by omega),
    if_neg (by simp only [hic, Bool.false_eq_true, false_or]; omega), if_neg (by omega)]

/-! ### BEN (R169, R173) -/

/-- A word with bit `m` put to `b`. -/
def Word.putBit (e : Word) (m : Nat) (b : Bool) : Word :=
  if b then e ||| BitVec.ofNat 32 (2 ^ m) else e &&& ~~~ BitVec.ofNat 32 (2 ^ m)

theorem Word.getLsbD_putBit (e : Word) (b : Bool) {m k : Nat} (hk : k < 32) :
    (Word.putBit e m b).getLsbD k = if k = m then b else e.getLsbD k := by
  have hbit : (BitVec.ofNat 32 (2 ^ m)).getLsbD k = decide (m = k) := by
    rw [BitVec.getLsbD_ofNat, Nat.testBit_two_pow, decide_eq_true hk, Bool.true_and]
  unfold Word.putBit
  by_cases hm : k = m
  · subst hm
    cases b <;> simp only [if_true, Bool.false_eq_true, if_false, BitVec.getLsbD_or, BitVec.getLsbD_and, BitVec.getLsbD_not, hbit, decide_true,
      Bool.or_true, Bool.not_true, Bool.and_false]
  · rw [decide_eq_false (Ne.symm hm)] at hbit
    cases b <;> simp only [if_true, Bool.false_eq_true, if_false, BitVec.getLsbD_or, BitVec.getLsbD_and, BitVec.getLsbD_not, hbit, hm,
      Bool.or_false, hk, decide_true, Bool.not_false, Bool.and_true]

/-- A core with the enable of block `n` put to `b`. -/
def Core.putEnable (x : Core) (n : Nat) (b : Bool) : Core :=
  if n < 32 then { x with en0 := Word.putBit x.en0 (n % 32) b } else { x with en1 := Word.putBit x.en1 (n % 32) b }

theorem Core.putEnable_frame (x : Core) (n : Nat) (b : Bool) :
    x.putEnable n b = { x with en0 := (x.putEnable n b).en0, en1 := (x.putEnable n b).en1 } := by
  unfold Core.putEnable; split <;> rfl

theorem Core.enabled_putEnable (x : Core) (b : Bool) {n k : Nat} (hn : n < 64) (hk : k < 64) :
    (x.putEnable n b).enabled k = if k = n then b else x.enabled k := by
  unfold Core.putEnable Core.enabled
  by_cases hn32 : n < 32 <;> by_cases hk32 : k < 32
  · simp only [hn32, hk32, if_true, Word.getLsbD_putBit _ _ hk32, Nat.mod_eq_of_lt]
  · simp only [hn32, hk32, if_true, if_false, if_neg (show ¬ k = n by omega)]
  · simp only [hn32, hk32, if_true, if_false, if_neg (show ¬ k = n by omega)]
  · have h : (k - 32 = n % 32) = (k = n) := propext (by omega)
    simp only [hn32, hk32, if_false, Word.getLsbD_putBit _ _ (show k - 32 < 32 by omega), h]

theorem exec_ben {s : State} {c w : Nat} (h : s.runs c 0x16 w) :
    exec (.ben c Obs.quiet) s = .next (s.setCore c ((s.core c).advance.putEnable (bits w 5 0) (bit w 6))) :=
  exec_pure rfl h rfl (by rw [Core.putEnable_frame]; rfl)

/-! ### SCFG (R90, R183) -/

/-- What a returned item changes: the core's galleys, ports and wake, and the messages that the step sends. -/
def Cx.Returns (x y : Cx) : Prop :=
  y = { x with
    msgs := y.msgs
    core := { x.core with galleys := y.core.galleys, ports := y.core.ports, gated := y.core.gated, fails := y.core.fails } }

theorem Cx.returnSlots_returns (x : Cx) (g : Nat) (m : Msg) : x.Returns (x.returnSlots g m) := by
  unfold Cx.returnSlots
  split
  · split <;> rfl
  · dsimp only
    split
    · rfl
    · split <;> rfl

theorem Cx.release_returns (x : Cx) (g : Nat) (i : Item) : x.Returns (x.release g i) := by
  unfold Cx.release
  split
  · have h := Cx.returnSlots_returns (x.mapCore (fun c => c.updGalley g (fun y => y.drop i))) g i.msg
    rw [Cx.Returns] at h ⊢
    rw [h]
    rfl
  · rfl

/-- A steering unit without a token, as SCFG leaves it before it loads the configuration. -/
def Steer.dropped (u : Steer) : Steer := { u with run := 0, sel := 0, tok := none }

theorem Cx.dropToken_none {x : Cx} {n : Nat} (h : (x.core.steer n).tok = none) :
    x.dropToken n = x.mapCore (fun k => k.updSteer n Steer.dropped) := by
  rw [Cx.dropToken, h]; rfl

/-- A step in which a unit drops its token goes on, and the unit is left without it. -/
theorem Cx.dropToken_frame (x : Cx) (n : Nat) : (x.dropToken n).evs = x.evs ∧ (x.dropToken n).stop = x.stop ∧
    (x.dropToken n).core.nc = x.core.nc ∧ (x.dropToken n).core.steer n = (x.core.steer n).dropped := by
  cases ht : (x.core.steer n).tok with
  | none =>
    rw [Cx.dropToken_none ht]
    exact ⟨rfl, rfl, rfl, Core.steer_updSteer _ _ _⟩
  | some t =>
    have hd : x.dropToken n = (x.release t.1 t.2).mapCore (fun k => k.updSteer n Steer.dropped) := by rw [Cx.dropToken, ht]; rfl
    have hr : x.Returns (x.release t.1 t.2) := x.release_returns t.1 t.2
    rw [hd, hr]
    exact ⟨rfl, rfl, rfl, Core.steer_updSteer _ _ _⟩

/-- A steering unit with its configuration loaded. -/
def Steer.load (v : Word) (u : Steer) : Steer := { u with cfg := v }

/-- The configuration that SCFG gives a steering unit: the register without its reserved bits. -/
def Core.steerWord (x : Core) (w : Nat) : Word := x.rdS (fA w) &&& 0xFFFF1

theorem opScfg_same {w : Nat} {x : Cx} (hc : wordAt (x.core.steerWord w) 7 4 = (x.core.steer (fD w)).ctl) :
    opScfg w x = x.mapCore (fun k => k.updSteer (fD w) (Steer.load (x.core.steerWord w))) :=
  congrArg (Cx.mapCore · (fun k => k.updSteer (fD w) (Steer.load (x.core.steerWord w)))) (if_neg (not_not_intro hc))

theorem opScfg_changed {w : Nat} {x : Cx} (hc : wordAt (x.core.steerWord w) 7 4 ≠ (x.core.steer (fD w)).ctl) :
    opScfg w x = (x.dropToken (fD w)).mapCore (fun k => k.updSteer (fD w) (Steer.load (x.core.steerWord w))) :=
  congrArg (Cx.mapCore · (fun k => k.updSteer (fD w) (Steer.load (x.core.steerWord w)))) (if_pos hc)

section
variable {s : State} {c w : Nat} (h : s.runs c 0x15 w)
include h

theorem exec_scfg_same (hc : wordAt ((s.core c).steerWord w) 7 4 = ((s.core c).steer (fD w)).ctl) :
    exec (.scfg c Obs.quiet) s = .next (s.setCore c ((s.core c).advance.updSteer (fD w) (Steer.load ((s.core c).steerWord w)))) :=
  exec_pure rfl h (opScfg_same hc) rfl

theorem exec_scfg_changed (hc : wordAt ((s.core c).steerWord w) 7 4 ≠ ((s.core c).steer (fD w)).ctl) :
    ∃ t, exec (.scfg c Obs.quiet) s = .next t ∧
      (t.core c).steer (fD w) = ((s.core c).steer (fD w)).dropped.load ((s.core c).steerWord w) ∧
      (((s.core c).steer (fD w)).tok = none → t = s.setCore c ((s.core c).advance.updSteer (fD w)
        (fun _ => ((s.core c).steer (fD w)).dropped.load ((s.core c).steerWord w)))) := by
  obtain ⟨hevs, hstop, hnc, hsteer⟩ := Cx.dropToken_frame (Cx.start c (s.core c).advance s.free) (fD w)
  refine ⟨_, exec_sends rfl h (opScfg_changed hc) hevs hstop (fun _ => hnc), ?_, fun ht => ?_⟩
  · rw [State.core_forAll_arrive]
    refine (congrArg (Core.steer · (fD w)) (State.core_setCore s c _)).trans ?_
    rw [Cx.mapCore_core, Core.steer_updSteer, hsteer]
    rfl
  · rw [Cx.dropToken_none (x := Cx.start c (s.core c).advance s.free) ht]
    exact congrArg (s.setCore c) (Core.updSteer_updSteer _ _ _ _)

end

/-- Settles O6: each instruction is its access of the registers of its core, and returning a dropped token changes no steering unit. -/
theorem csInstructions : Obligations.CsInstructions := by
  unfold Obligations.CsInstructions
  constructor
  · intro s c w x i a d
    exact ⟨fun h hi => exec_csr_state h hi, fun h hi hh => exec_csr_counter h hi hh, fun h hi => exec_csr_latched h hi,
      fun h hi h3 => exec_csr_value h hi h3, fun h hr => exec_csw h hr, fun h hr hd => exec_csw_reserved h hr hd,
      fun h => ⟨_, exec_ben h, Core.putEnable_frame _ _ _, fun n hn => Core.enabled_putEnable _ _ (bits_lt w 5 0) hn⟩,
      fun h => ⟨exec_scfg_same h, exec_scfg_changed h⟩⟩
  · intro x v
    exact ⟨rfl, rfl, rfl, rfl, rfl, rfl, rfl, rfl, x.writeCs_scratch v, fun i hi => x.writeCs_beyond hi v⟩

end Sys2Proof.Machine
end

section
/-! PROOFS. CHOPEN, CHLISTEN and CHCLOSE (R194, R195, R200-R204, R229): what each does to the core and sends, and the statement about
them. -/

namespace Sys2Proof.Machine

/-! ### Ports and galleys -/

@[simp] theorem Core.port_updPort_self (x : Core) (n : Nat) (f : Port → Port) : (x.updPort n f).port n = f (x.port n) :=
  Map.get_upd_self _ _ _ _

theorem Core.port_updPort_ne {n k : Nat} (h : k ≠ n) (x : Core) (f : Port → Port) : (x.updPort n f).port k = x.port k :=
  Map.get_upd_ne _ _ _ h

@[simp] theorem Core.port_setRef (x : Core) (n k : Nat) : (x.setRef n).port k = x.port k := rfl

@[simp] theorem Core.galley_updGalley_self (x : Core) (n : Nat) (f : Galley → Galley) : (x.updGalley n f).galley n = f (x.galley n) :=
  Map.get_upd_self _ _ _ _

theorem Core.galley_updGalley_ne {n k : Nat} (h : k ≠ n) (x : Core) (f : Galley → Galley) : (x.updGalley n f).galley k = x.galley k :=
  Map.get_upd_ne _ _ _ h

/-- The counter of CS_CHAN sets saturates (R11, R117). -/
theorem toNat_addSat32 (v : Word) (k : Nat) : (addSat32 v k).toNat = min (v.toNat + k) 0xFFFFFFFF := by
  unfold addSat32 satAdd
  rw [BitVec.toNat_ofNat]
  exact Nat.mod_eq_of_lt (by omega)

/-- The CONNECT of a port is one clean payload flit on virtual channel 1 to its target (R204, R209). -/
theorem Core.connectMsg_header (x : Core) (me n : Nat) (p : Port) (key : Nat) :
    (x.connectMsg me n p key).typ = 3 ∧ (x.connectMsg me n p key).vc = 1 ∧ (x.connectMsg me n p key).forme = x.forme ∧
    (x.connectMsg me n p key).sx = coreX me ∧ (x.connectMsg me n p key).sy = coreY me ∧ (x.connectMsg me n p key).sport = n ∧
    (x.connectMsg me n p key).dkind = p.dkind ∧ (x.connectMsg me n p key).dest = p.dest ∧
    ∀ sl ∈ (x.connectMsg me n p key).slots, sl.poisoned = false :=
  ⟨rfl, rfl, rfl, rfl, rfl, rfl, rfl, rfl, fun _ h => List.mem_singleton.1 h ▸ rfl⟩

/-! ### CHOPEN -/

/-- A port as CHOPEN asks to open it, from the registers of its target and its reader. -/
def Port.asked (p : Port) (a b : Nat) : Port :=
  { p with state := PortSt.pending, credit := 0, lenient := bit b 23, size := bits b 22 20, galley := bits b 19 16, target := bits a 17 0 }

/-- The port that a CHOPEN asks for. -/
def Core.askedPort (x : Core) (w : Nat) : Port := (x.port (fHN w)).asked (x.rdS (fHA w)).toNat (x.rdS (fHB w)).toNat

/-- The registers of a CHOPEN hold nothing in their reserved fields. -/
def Core.opensLegally (x : Core) (w : Nat) : Prop := bits (x.rdS (fHA w)).toNat 31 18 = 0 ∧ bits (x.rdS (fHB w)).toNat 31 24 = 0

theorem Core.opensLegally.not_reserved {x : Core} {w : Nat} (h : x.opensLegally w) :
    ¬ (bits (x.rdS (fHA w)).toNat 31 18 ≠ 0 ∨ bits (x.rdS (fHB w)).toNat 31 24 ≠ 0) := by
  obtain ⟨ha, hb⟩ := h
  rintro (h | h)
  · exact h ha
  · exact h hb

section
variable {w : Nat} {x : Cx}

theorem opChopen_illegal (h : bits (x.core.rdS (fHA w)).toNat 31 18 ≠ 0 ∨ bits (x.core.rdS (fHB w)).toNat 31 24 ≠ 0) :
    opChopen w x = x.halt FaultCode.illegal w Unit.scalar := if_pos h

variable (h : x.core.opensLegally w)
include h

theorem opChopen_open (hp : (x.core.port (fHN w)).state = 1 ∨ (x.core.port (fHN w)).state = 2) : opChopen w x = x :=
  (if_neg h.not_reserved).trans (if_pos hp.symm)

theorem opChopen_shut (hp : (x.core.port (fHN w)).state = 0 ∨ (x.core.port (fHN w)).state = 3) : opChopen w x =
    if x.core.refusesOpen (x.core.askedPort w) then
      x.mapCore (fun k => (k.updPort (fHN w) (fun _ => { x.core.askedPort w with state := PortSt.idle, reason := 0 })).setRef (fHN w))
    else { x.mapCore (fun k => k.updPort (fHN w) (fun _ => x.core.askedPort w)) with
      msgs := x.msgs ++ [x.core.connectMsg x.me (fHN w) (x.core.askedPort w) (bits (x.core.rdS (fHB w)).toNat 15 0)] } := by
  have hp' : ¬ ((x.core.port (fHN w)).state = PortSt.openSt ∨ (x.core.port (fHN w)).state = PortSt.pending) := by
    rcases hp with hp | hp <;> rw [hp] <;> decide
  exact (if_neg h.not_reserved).trans (if_neg hp')

end

theorem Core.refusesOpen_advance (x : Core) (p : Port) : x.advance.refusesOpen p = x.refusesOpen p := rfl

section
variable {s : State} {c w : Nat} (h : s.runs c 0x38 w) (hl : (s.core c).advance.opensLegally w)
include h hl

theorem exec_chopen_open (hp : ((s.core c).port (fHN w)).state = 1 ∨ ((s.core c).port (fHN w)).state = 2) :
    exec (.chopen c Obs.quiet) s = .next (s.setCore c (s.core c).advance) :=
  exec_pure rfl h (opChopen_open hl hp) rfl

variable (hp : ((s.core c).advance.port (fHN w)).state = 0 ∨ ((s.core c).advance.port (fHN w)).state = 3)
include hp

theorem exec_chopen_sends (hr : (s.core c).refusesOpen ((s.core c).advance.askedPort w) = false) :
    exec (.chopen c Obs.quiet) s =
      .next ((s.setCore c ((s.core c).advance.updPort (fHN w) (fun _ => (s.core c).advance.askedPort w))).arrive c 4
        ((s.core c).advance.connectMsg c (fHN w) ((s.core c).advance.askedPort w) (bits ((s.core c).advance.rdS (fHB w)).toNat 15 0))) := by
  rw [← Core.refusesOpen_advance] at hr
  have hf := opChopen_shut (x := Cx.start c (s.core c).advance s.free) hl hp
  rw [Cx.start_core, hr, if_neg Bool.false_ne_true] at hf
  exact exec_sends rfl h hf rfl rfl (fun _ => rfl)

theorem exec_chopen_refused (hr : (s.core c).refusesOpen ((s.core c).advance.askedPort w) = true) :
    exec (.chopen c Obs.quiet) s = .next (s.setCore c (((s.core c).advance.updPort (fHN w)
      (fun _ => { (s.core c).advance.askedPort w with state := 0, reason := 0 })).setRef (fHN w))) := by
  rw [← Core.refusesOpen_advance] at hr
  have hf := opChopen_shut (x := Cx.start c (s.core c).advance s.free) hl hp
  rw [Cx.start_core, hr, if_pos rfl] at hf
  exact exec_pure rfl h hf rfl

end

/-! ### CHLISTEN and CHCLOSE -/

/-- A galley that no longer listens: its channels are closed, and named so that their late messages are absorbed (R229). -/
def Galley.silenced (g : Galley) : Galley :=
  { g with lst := g.lst &&& 0x7FFFFFFF, chans := [], shut := (g.shut ++ g.chans.map (fun c => (c.src, c.port, c.cls))).eraseDups }

theorem Galley.silenced_listening (g : Galley) : g.silenced.listening = false := by
  show (g.lst &&& 0x7FFFFFFF).getLsbD 31 = false
  rw [BitVec.getLsbD_and]
  exact Bool.and_eq_false_imp.2 (fun _ => by decide)

theorem opChclose_galley {w : Nat} {x : Cx} (hk : fHKind w = 1) : opChclose w x =
    { x.mapCore (fun k => k.updGalley (fHN w) Galley.silenced) with
      msgs := x.msgs ++ (x.core.galley (fHN w)).chans.map (fun ch => closeMsgTo x.core.forme x.me ch.src ch.port true) } :=
  if_neg (by rw [hk]; decide)

theorem exec_chlisten {s : State} {c w : Nat} (h : s.runs c 0x39 w) (hb : wordAt ((s.core c).rdS (fHB w)) 31 16 = 0) :
    exec (.chlisten c Obs.quiet) s = .next (s.setCore c
      ((s.core c).advance.updGalley (fHN w) (fun g => { g with lst := 0x80000000 ||| (s.core c).rdS (fHB w) }))) :=
  exec_pure rfl h (if_neg (not_not_intro hb)) rfl

theorem exec_chclose_port {s : State} {c w : Nat} (h : s.runs c 0x3A w) (hk : fHKind w = 0) :
    exec (.chclose c Obs.quiet) s = .next (s.setCore c { (s.core c).advance with closing := (s.core c).closing ++ [fHN w] }) :=
  exec_pure rfl h (if_pos hk) rfl

theorem exec_chclose_galley {s : State} {c w : Nat} (h : s.runs c 0x3A w) (hk : fHKind w = 1) :
    exec (.chclose c Obs.quiet) s = .next ((s.setCore c ((s.core c).advance.updGalley (fHN w) Galley.silenced)).forAll
      (((s.core c).galley (fHN w)).chans.map (fun ch => closeMsgTo (s.core c).forme c ch.src ch.port true)) (fun t m => t.arrive c 4 m)) :=
  exec_sends rfl h (opChclose_galley hk) rfl rfl (fun _ => rfl)

/-- Settles O14: an open is refused at the core or sent to the reader, and what the other two do stays in the core but for the CLOSEs. -/
theorem channelControl : Obligations.ChannelControl := by
  unfold Obligations.ChannelControl
  intro s c w z x n a b asked
  refine ⟨fun h ha hb hp hr => ?_, fun h ha hb hp hr => ?_, fun h ha hb hp => exec_chopen_open h ⟨ha, hb⟩ hp, fun h hb => exec_chlisten h hb,
    fun h hk => exec_chclose_port h hk, fun h hk => ?_, fun h hab => exec_illegal rfl h (opChopen_illegal hab),
    fun h hb => exec_illegal rfl h (if_pos hb)⟩
  · exact ⟨_, exec_chopen_sends h ⟨ha, hb⟩ hp hr, Core.connectMsg_header _ _ _ _ _⟩
  · exact ⟨_, exec_chopen_refused h ⟨ha, hb⟩ hp hr, rfl, (Core.port_setRef _ _ _).trans (Core.port_updPort_self _ _ _),
      fun k hk => (Core.port_setRef _ _ _).trans (Core.port_updPort_ne hk _ _), rfl, toNat_addSat32 _ _⟩
  · have hself := x.galley_updGalley_self n Galley.silenced
    refine ⟨_, exec_chclose_galley h hk, rfl, fun k hk => Core.galley_updGalley_ne hk _ _, ?_, ?_, ?_⟩
    · exact congrArg Galley.chans hself
    · exact (congrArg Galley.listening hself).trans (Galley.silenced_listening _)
    · exact (congrArg Galley.items hself).trans rfl

end Sys2Proof.Machine
end

section
/-! PROOFS. Combining galleys and spill credit (R220-R222, R226, R266): the elements and the codewords of a sum of slots, what a
contribution does to its galley, and the statement about them. -/

namespace Sys2Proof.Machine

/-! ### Packed elements -/

theorem elemBits_eq (w x i : Nat) : elemBits w x i = x / 2 ^ (i * w) % 2 ^ w := by rw [elemBits, Nat.shiftRight_eq_div_pow]

theorem packBits_lt (w : Nat) (l : List Nat) : packBits w l < 2 ^ (w * l.length) := by
  induction l with
  | nil => exact Nat.two_pow_pos _
  | cons v t ih =>
    rw [packBits, List.length_cons, Nat.mul_succ, Nat.add_comm, Nat.pow_add, Nat.mul_comm (2 ^ _) (2 ^ w)]
    calc 2 ^ w * packBits w t + v % 2 ^ w < 2 ^ w * packBits w t + 2 ^ w := Nat.add_lt_add_left (Nat.mod_lt _ (Nat.two_pow_pos w)) _
      _ = 2 ^ w * (packBits w t + 1) := (Nat.mul_succ _ _).symm
      _ ≤ 2 ^ w * 2 ^ (w * t.length) := Nat.mul_le_mul_left _ ih

theorem elemBits_packBits (w : Nat) (l : List Nat) : ∀ (i : Nat) (h : i < l.length), elemBits w (packBits w l) i = l[i] % 2 ^ w := by
  induction l with
  | nil => exact fun _ h => nomatch h
  | cons v t ih =>
    intro i h
    rw [elemBits_eq, packBits]
    cases i with
    | zero => simp
    | succ j =>
      have hdiv : (v % 2 ^ w + 2 ^ w * packBits w t) / 2 ^ w = packBits w t := by
        rw [Nat.add_mul_div_left _ _ (Nat.two_pow_pos w), Nat.div_eq_of_lt (Nat.mod_lt _ (Nat.two_pow_pos w)), Nat.zero_add]
      rw [Nat.succ_mul, Nat.add_comm (j * w) w, Nat.pow_add, ← Nat.div_div_eq_div_mul, hdiv, ← elemBits_eq]
      exact ih j (Nat.lt_of_succ_lt_succ h)

/-! ### Encodings fit their format (R122, R146) -/

/-- The magnitudes that rounding gives leave the sign bit free. -/
theorem fmt_magnitudes : ∀ f < 8, fmtNan f < 2 ^ fmtBits f ∧ fmtMax f < 2 ^ (fmtBits f - 1) ∧ (f = 3 → 0x7F < 2 ^ (fmtBits f - 1)) ∧
    (fmtIeee f = true → (2 ^ fmtExp f - 1) * 2 ^ fmtFrac f < 2 ^ (fmtBits f - 1)) ∧
    2 ^ fmtBits f = 2 ^ (fmtBits f - 1) + 2 ^ (fmtBits f - 1) := by decide

theorem encodeNum_lt {f : Nat} (hf : f < 8) (x : Fval) (r : Rnd) : (encodeNum f x r).1 < 2 ^ fmtBits f := by
  obtain ⟨hnan, hmax, h3, hinf, htop⟩ := fmt_magnitudes f hf
  have hint : fmtInt f = false := decide_eq_false (Nat.not_le.2 hf)
  have hsign : (if x.neg then 2 ^ (fmtBits f - 1) else 0) ≤ 2 ^ (fmtBits f - 1) := by split <;> omega
  have hpos := Nat.two_pow_pos (fmtBits f - 1)
  simp only [encodeNum, hint, Bool.false_eq_true, if_false, Bool.and_eq_true, decide_eq_true_eq]
  generalize (if x.neg then 2 ^ (fmtBits f - 1) else 0) = sign at hsign ⊢
  have signed {m : Nat} (hm : m < 2 ^ (fmtBits f - 1)) : sign + m < 2 ^ fmtBits f := by omega
  split
  · exact hnan
  split
  · split
    · next hi => exact signed (hinf hi.2)
    split
    · next h7 => exact signed (h3 h7.2)
    · exact signed hmax
  split
  · exact signed hpos
  split
  · exact signed hpos
  split
  · split
    · next hi => exact signed (hinf hi.2)
    split
    · next h7 => exact signed (h3 h7.2)
    · exact signed hmax
  · next hb =>
    split
    · exact signed hpos
    · exact signed (Nat.lt_of_le_of_lt (Nat.not_lt.1 hb) hmax)

/-! ### Sums of slots (R222, R266) -/

theorem addElem_lt (fmt a b : Nat) : addElem fmt a b < 2 ^ addWidth fmt := by
  unfold addElem
  split
  · next h =>
    have hw : addWidth fmt = fmtBits fmt := by rcases h with rfl | rfl <;> rfl
    exact hw ▸ encodeNum_lt (by omega) _ _
  · next h =>
    rw [addWidth, if_neg (fun h1 => h (.inr h1))]
    exact Nat.mod_lt _ (Nat.two_pow_pos 32)

theorem addWidth_mul (fmt : Nat) : addWidth fmt * (256 / addWidth fmt) = 256 := by
  unfold addWidth; split <;> rfl

theorem Slot.elemBits_add (fmt : Nat) (x y : Slot) {i : Nat} (hi : i < 256 / addWidth fmt) :
    elemBits (addWidth fmt) (Slot.add fmt x y).data.toNat i =
      addElem fmt (elemBits (addWidth fmt) x.data.toNat i) (elemBits (addWidth fmt) y.data.toNat i) := by
  let sums := (List.range (256 / addWidth fmt)).map fun k =>
    addElem fmt (elemBits (addWidth fmt) x.data.toNat k) (elemBits (addWidth fmt) y.data.toNat k)
  have hlen : sums.length = 256 / addWidth fmt := by rw [List.length_map, List.length_range]
  have hfit : packBits (addWidth fmt) sums < 2 ^ 256 := by
    have := packBits_lt (addWidth fmt) sums
    rwa [hlen, addWidth_mul] at this
  have hdata : (Slot.add fmt x y).data.toNat = packBits (addWidth fmt) sums :=
    (BitVec.toNat_ofNat _ _).trans (Nat.mod_eq_of_lt hfit)
  rw [hdata, elemBits_packBits _ _ _ (hlen.symm ▸ hi)]
  simp only [sums, List.getElem_map, List.getElem_range]
  exact Nat.mod_eq_of_lt (addElem_lt _ _ _)

theorem Cw.read_eq_poison (a : Cw) : a.read = .poison ↔ a = .poison ∨ a = .uncorrectable := by cases a <;> decide

theorem Cw.ofPoison_eq_poison (p : Bool) : Cw.ofPoison p = .poison ↔ p = true := by cases p <;> decide

theorem Cw.ofPoison_poison_or_clean (p : Bool) : Cw.ofPoison p = .poison ∨ Cw.ofPoison p = .clean := by cases p <;> decide

theorem Cw.sum_eq_poison (a b : Cw) : Cw.sum a b = .poison ↔ a = .poison ∨ a = .uncorrectable ∨ b = .poison ∨ b = .uncorrectable := by
  rw [← or_assoc, ← Cw.read_eq_poison a, ← Cw.read_eq_poison b, Cw.sum, Cw.ofPoison_eq_poison, Bool.or_eq_true, beq_iff_eq, beq_iff_eq]

theorem Cw.sum_poison_or_clean (a b : Cw) : Cw.sum a b = .poison ∨ Cw.sum a b = .clean := Cw.ofPoison_poison_or_clean _

/-! ### Reading sound slots (R78, R103) -/

theorem soundSlots_mem {l : List Slot} (h : soundSlots l) {y : Slot} (hy : y ∈ l) :
    (y.lo = .clean ∨ y.lo = .poison) ∧ (y.hi = .clean ∨ y.hi = .poison) :=
  ⟨h _ (List.mem_flatMap.2 ⟨y, hy, by simp⟩), h _ (List.mem_flatMap.2 ⟨y, hy, by simp⟩)⟩

theorem Cw.read_sound {w : Cw} (h : w = .clean ∨ w = .poison) : w.read = w := by rcases h with rfl | rfl <;> rfl

theorem Cx.noteCw_sound {w : Cw} (h : w = .clean ∨ w = .poison) (x : Cx) (mem loc : Nat) : x.noteCw w mem loc = x := by
  rcases h with rfl | rfl <;> rfl

theorem Cx.readContribution_sound {i : Item} (h : soundSlots i.msg.slots) (x : Cx) (g : Galley) :
    x.readContribution g i = (i.msg.slots, x.foundPoison (anyPoison i.msg.slots)) := by
  have hread : i.msg.slots.map (fun y => { y with lo := y.lo.read, hi := y.hi.read }) = i.msg.slots := by
    refine (List.map_congr_left fun y hy => ?_).trans (List.map_id _)
    obtain ⟨hlo, hhi⟩ := soundSlots_mem h hy
    rw [Cw.read_sound hlo, Cw.read_sound hhi]; rfl
  have hnote : (List.zip (List.range i.msg.slots.length) i.msg.slots).foldl (fun (y : Cx) e =>
      (y.noteCw e.2.lo 2 (g.slotOf i e.1 * 2)).noteCw e.2.hi 2 (g.slotOf i e.1 * 2 + 1)) x = x := by
    refine List.foldlRecOn (motive := (· = x)) _ _ rfl fun y hy e he => ?_
    obtain ⟨hlo, hhi⟩ := soundSlots_mem h (List.of_mem_zip he).2
    rw [Cx.noteCw_sound hlo, Cx.noteCw_sound hhi, hy]
  unfold Cx.readContribution
  rw [hread, hnote]

/-- A core that sets PSN when it has read poison (R103). -/
def Core.notesPoison (x : Core) (p : Bool) : Core := if p then x.setFlag Flag.psn else x

theorem Cx.foundPoison_start (c : Nat) (x : Core) (n : Nat) (p : Bool) :
    (Cx.start c x n).foundPoison p = Cx.start c (x.notesPoison p) n := by cases p <;> rfl

/-! ### What an addition leaves of its core and of its galley (R220-R222) -/

/-- What an addition in galley `n` leaves of its core: the other galleys, the store, the scalar registers and the numeric counters. -/
structure Core.KeepsBesides (n : Nat) (x y : Core) : Prop where
  galley : ∀ k, k ≠ n → y.galley k = x.galley k
  store : y.store = x.store
  s : y.s = x.s
  nc : y.nc = x.nc

section
variable {n : Nat} {x y z : Core}

theorem Core.KeepsBesides.trans (h : x.KeepsBesides n y) (g : y.KeepsBesides n z) : x.KeepsBesides n z :=
  ⟨fun k hk => (g.galley k hk).trans (h.galley k hk), g.store.trans h.store, g.s.trans h.s, g.nc.trans h.nc⟩

theorem Core.KeepsBesides.updGalley (h : x.KeepsBesides n y) (f : Galley → Galley) : x.KeepsBesides n (y.updGalley n f) :=
  h.trans ⟨fun _ hk => Core.galley_updGalley_ne hk y f, rfl, rfl, rfl⟩

theorem Core.KeepsBesides.notesPoison (h : x.KeepsBesides n y) (p : Bool) : x.KeepsBesides n (y.notesPoison p) :=
  h.trans (by cases p <;> exact ⟨fun _ _ => rfl, rfl, rfl, rfl⟩)

theorem Core.KeepsBesides.wake (h : x.KeepsBesides n y) : x.KeepsBesides n y.wake := h.trans ⟨fun _ _ => rfl, rfl, rfl, rfl⟩

theorem Core.KeepsBesides.releaseEntry (h : x.KeepsBesides n y) (e : Entry) : x.KeepsBesides n (y.releaseEntry n e) := by
  simp only [Core.releaseEntry]
  split
  · exact h.updGalley _
  · have hcount : x.KeepsBesides n (if (y.galley n).expect < e.total then y.countOver n else y) := by
      split
      · exact h.trans ⟨fun _ _ => rfl, rfl, rfl, rfl⟩
      · exact h
    exact (hcount.updGalley _).wake

end

@[simp] theorem Core.galley_notesPoison (x : Core) (p : Bool) (k : Nat) : (x.notesPoison p).galley k = x.galley k := by cases p <;> rfl

@[simp] theorem Core.galley_wake (x : Core) (k : Nat) : x.wake.galley k = x.galley k := rfl

/-- A galley that keeps an entry below EXPECT, and gives one that reaches it to the read side (R221, R223). -/
def Galley.releaseEntry (g : Galley) (e : Entry) : Galley :=
  if e.total < g.expect then { g with entries := g.entries.filter (fun f => f.key != e.key) ++ [e] }
  else { g with
    entries := g.entries.filter (fun f => f.key != e.key)
    items := g.items ++ [{ e.item e.slots with msg := { (e.item e.slots).msg with count := min 4095 e.total } }] }

theorem Core.galley_releaseEntry (x : Core) (n : Nat) (e : Entry) : (x.releaseEntry n e).galley n = (x.galley n).releaseEntry e := by
  simp only [Core.releaseEntry, Galley.releaseEntry]
  split
  · exact Core.galley_updGalley_self _ _ _
  · have hcount : (if (x.galley n).expect < e.total then x.countOver n else x).galley n = x.galley n := by split <;> rfl
    rw [Core.galley_wake, Core.galley_updGalley_self, hcount]

theorem Galley.contribs_releaseEntry (g : Galley) (e : Entry) : (g.releaseEntry e).contribs = g.contribs := by
  unfold Galley.releaseEntry; split <;> rfl

theorem Galley.releaseEntry_pending {g : Galley} {e : Entry} (h : e.total < g.expect) :
    (g.releaseEntry e).items = g.items ∧ e ∈ (g.releaseEntry e).entries := by
  rw [Galley.releaseEntry, if_pos h]
  exact ⟨rfl, List.mem_append_right _ (List.mem_singleton_self e)⟩

theorem Galley.releaseEntry_complete {g : Galley} {e : Entry} (h : g.expect ≤ e.total) :
    (∀ f ∈ (g.releaseEntry e).entries, f.key ≠ e.key) ∧ ∃ j : Item, (g.releaseEntry e).items = g.items ++ [j] ∧
      j.msg.slots = e.slots ∧ j.msg.cls = e.owner.cls ∧ j.msg.count = min 4095 e.total := by
  rw [Galley.releaseEntry, if_neg (Nat.not_lt.2 h)]
  exact ⟨fun f hf => bne_iff_ne.1 (List.mem_filter.1 hf).2, _, rfl, rfl, rfl, rfl⟩

/-! ### COMBINING_ADD -/

/-- The entry that a contribution opens (R220). -/
def Item.opens (a : Item) : Entry := { key := a.msg.tag, total := a.msg.count, slots := a.msg.slots, pos := a.pos, owner := a.msg }

/-- The entry with a contribution added (R220, R222). -/
def Entry.plus (e : Entry) (fmt : Nat) (m : Msg) : Entry :=
  { e with total := e.total + m.count, slots := List.zipWith (Slot.add fmt) e.slots m.slots }

/-- A core that has read the next contribution of a galley and taken it out. -/
def Core.takesContribution (x : Core) (n : Nat) (a : Item) : Core :=
  (x.notesPoison (anyPoison a.msg.slots)).updGalley n (fun g => { g with contribs := g.contribs.drop 1 })

/-- A core whose next contribution opens an entry. -/
def Core.opensEntry (x : Core) (n : Nat) (a : Item) : Core := (x.takesContribution n a).releaseEntry n a.opens

/-- A core whose next contribution is added to an entry, which frees the contribution's slots. -/
def Core.addsToEntry (x : Core) (n : Nat) (a : Item) (e : Entry) : Core :=
  (((x.takesContribution n a).notesPoison (anyPoison e.slots)).updGalley n
    (fun g => { g with rp := g.advance g.rp 0 a.msg.slots.length })).releaseEntry n (e.plus (x.galley n).addFmt a.msg)

section
variable (x : Core) (n : Nat) (a : Item)

theorem Core.takesContribution_keeps : x.KeepsBesides n (x.takesContribution n a) :=
  (Core.KeepsBesides.notesPoison ⟨fun _ _ => rfl, rfl, rfl, rfl⟩ _).updGalley _

theorem Core.opensEntry_keeps : x.KeepsBesides n (x.opensEntry n a) := (x.takesContribution_keeps n a).releaseEntry _

theorem Core.addsToEntry_keeps (e : Entry) : x.KeepsBesides n (x.addsToEntry n a e) :=
  (((x.takesContribution_keeps n a).notesPoison _).updGalley _).releaseEntry _

theorem Core.galley_takesContribution :
    (x.takesContribution n a).galley n = { x.galley n with contribs := (x.galley n).contribs.drop 1 } := by
  rw [Core.takesContribution, Core.galley_updGalley_self, Core.galley_notesPoison]

theorem Core.galley_opensEntry : (x.opensEntry n a).galley n =
    Galley.releaseEntry { x.galley n with contribs := (x.galley n).contribs.drop 1 } a.opens := by
  rw [Core.opensEntry, Core.galley_releaseEntry, Core.galley_takesContribution]

theorem Core.galley_addsToEntry (e : Entry) : (x.addsToEntry n a e).galley n = Galley.releaseEntry
    { x.galley n with
      contribs := (x.galley n).contribs.drop 1
      rp := (x.galley n).advance (x.galley n).rp 0 a.msg.slots.length } (e.plus (x.galley n).addFmt a.msg) := by
  rw [Core.addsToEntry, Core.galley_releaseEntry, Core.galley_updGalley_self, Core.galley_notesPoison, Core.galley_takesContribution]
  rfl

end

section
variable {s : State} {c n : Nat} {a : Item} {rest : List Item} (hs : s.routes c = true) (hc : ((s.core c).galley n).contribs = a :: rest)
  (ha : soundSlots a.msg.slots)
include hs hc

theorem exec_combiningAdd : exec (.combiningAdd c n Obs.quiet) s =
    .next (s.settleCore c (s.core c).pc ((Cx.start c (s.core c) s.free).combine n a)) := by
  show execCombiningAdd c n Obs.quiet s = _
  unfold execCombiningAdd
  rw [hs, hc]
  rfl

include ha

theorem exec_combiningAdd_opens (he : ((s.core c).galley n).entries.find? (fun e => e.key == a.msg.tag) = none) :
    exec (.combiningAdd c n Obs.quiet) s = .next (s.setCore c ((s.core c).opensEntry n a)) := by
  have hx : (Cx.start c (s.core c) s.free).combine n a = Cx.start c ((s.core c).opensEntry n a) s.free := by
    unfold Cx.combine
    simp only [Cx.start_core, he, Cx.readContribution_sound ha, Cx.foundPoison_start]
    rfl
  rw [exec_combiningAdd hs hc, hx, State.settleCore_plain _ _ _ _ rfl rfl rfl ((s.core c).opensEntry_keeps n a).nc]
  rfl

theorem exec_combiningAdd_adds {e : Entry} (he : ((s.core c).galley n).entries.find? (fun e => e.key == a.msg.tag) = some e)
    (hes : soundSlots e.slots) (hy : a.msg.sy < 448) :
    exec (.combiningAdd c n Obs.quiet) s = .next ((s.setCore c ((s.core c).addsToEntry n a e)).arrive c 4
      (creditMsgTo (s.core c).forme c a.msg.src a.msg.sport a.msg.slots.length)) := by
  have hx : (Cx.start c (s.core c) s.free).combine n a = { Cx.start c ((s.core c).addsToEntry n a e) s.free with
      msgs := [creditMsgTo (s.core c).forme c a.msg.src a.msg.sport a.msg.slots.length] } := by
    have hfrom : a.msg.fromCore = true := decide_eq_true hy
    unfold Cx.combine
    simp only [Cx.start_core, he, Cx.readContribution_sound ha, Cx.readContribution_sound (i := e.item e.slots) hes, hfrom,
      Cx.foundPoison_start, Cx.mapCore_start]
    rfl
  rw [exec_combiningAdd hs hc, hx,
    State.settleCore_sends _ _ _ rfl rfl (fun _ => ((s.core c).addsToEntry_keeps n a e).nc)]
  rfl

end

/-! ### SPILL_CREDIT_GRANT -/

/-- A core whose galley owes spill credit of `k` more slots (R226). -/
def Core.owesSpill (x : Core) (n k : Nat) : Core := x.updGalley n (fun g => { g with debt := g.debt + k })

theorem Core.galley_owesSpill (x : Core) (n k : Nat) :
    (x.owesSpill n k).galley n = { x.galley n with debt := (x.galley n).debt + k } := Core.galley_updGalley_self _ _ _

theorem exec_spillCreditGrant {s : State} {c n : Nat} {ch : Chan} {rest : List Chan} (hs : s.executing c = true)
    (hc : ((s.core c).galley n).chans = ch :: rest) :
    exec (.spillCreditGrant c n) s = .next (if (s.core c).spillGrantDue n ch.size then
      (s.setCore c ((s.core c).owesSpill n ch.size)).arrive c 4 (creditMsgTo (s.core c).forme c ch.src ch.port ch.size) else s) := by
  show execSpillCreditGrant c n s = _
  unfold execSpillCreditGrant
  rw [hs, hc]
  rfl

/-- Settles O23: a sum is its elements' and its codewords', a contribution opens or feeds the entry of its key, which leaves its galley
at EXPECT, and a spill grant is one more debt and one CREDIT. -/
theorem combining : Obligations.Combining := by
  unfold Obligations.Combining
  refine ⟨?_, ?_, ?_⟩
  · intro fmt x y hf w z
    refine ⟨fun i hi => ?_, Cw.sum_eq_poison _ _, Cw.sum_eq_poison _ _, Cw.sum_poison_or_clean _ _, Cw.sum_poison_or_clean _ _⟩
    intro a b
    have hz : elemBits w z.data.toNat i = addElem fmt a b := Slot.elemBits_add fmt x y hi
    exact ⟨fun h => hz.trans (if_pos (by omega)), fun h => hz.trans (if_neg (by omega))⟩
  · intro s c n a rest z g m hs hc ha exe y' ends
    have hrest : g.contribs.drop 1 = rest := by rw [hc]; rfl
    refine ⟨fun he => ?_, fun e he hes hy => ?_⟩
    · obtain ⟨hgal, hst, hss, -⟩ := z.opensEntry_keeps n a
      have hself := z.galley_opensEntry n a
      refine ⟨_, exec_combiningAdd_opens hs hc ha he, ⟨?_, hgal, hst, hss⟩, fun h => ?_, fun h => ?_⟩
      · rw [hself, Galley.contribs_releaseEntry]; exact hrest
      · rw [hself]; exact Galley.releaseEntry_pending h
      · show _ ∧ _
        rw [hself]; exact Galley.releaseEntry_complete h
    · obtain ⟨hgal, hst, hss, -⟩ := z.addsToEntry_keeps n a e
      have hself := z.galley_addsToEntry n a e
      have hkey : e.key = m.tag := by simpa using List.find?_some he
      refine ⟨_, exec_combiningAdd_adds hs hc ha he hes hy, ⟨?_, hgal, hst, hss⟩, fun h => ?_, fun h => ?_⟩
      · rw [hself, Galley.contribs_releaseEntry]; exact hrest
      · rw [hself]; exact Galley.releaseEntry_pending h
      · show _ ∧ _
        rw [hself, ← hkey]; exact Galley.releaseEntry_complete h
  · intro s c n ch rest hs hc
    have hself := (s.core c).galley_owesSpill n ch.size
    refine ⟨fun hd => ⟨(s.core c).owesSpill n ch.size, ?_, ?_⟩, fun hd => ?_⟩
    · rw [exec_spillCreditGrant hs hc, if_pos hd]
    · rw [hself]; exact ⟨rfl, rfl⟩
    · rw [exec_spillCreditGrant hs hc, hd]; rfl

end Sys2Proof.Machine
end

section
/-! PROOFS. Routing (R245-R249, R253, R255): what the head of an input queue becomes, what a header with wrong parity brings about, and
the statement about them. -/

namespace Sys2Proof.Machine

/-! ### Input queues (R237) -/

/-- From `r` to `y`, input `k` has come to hold `q`; every other input, and what stands outside, is as it was. -/
def Router.InputIs (r : Router) (k : Nat) (q : List RBuf) (y : Router) : Prop :=
  (∀ j, Map.get [] y.wait j = Map.get [] r.wait j) ∧ ∀ j, Map.get [] y.inq j = if j = k then q else Map.get [] r.inq j

section
variable {r : Router} {k : Nat} {b : RBuf} {rest : List RBuf} (hq : Map.get [] r.inq k = b :: rest)
include hq

theorem Router.setIn_inputIs (x : RBuf) : r.InputIs k (x :: rest) (r.setIn k x) :=
  ⟨fun _ => rfl, fun j => (Map.get_upd [] r.inq k (fun q => x :: q.drop 1) j).trans (by rw [hq]; rfl)⟩

/-- Where no message stands outside, none comes in for the one that leaves. -/
theorem Router.popIn_inputIs (hw : Map.get [] r.wait k = []) : r.InputIs k rest (r.popIn k) := by
  have hfit (n : Nat) : fitting n (Map.get [] r.wait k) = ([], []) := by rw [hw]; rfl
  refine ⟨fun j => ?_, fun j => ?_⟩
  · show Map.get [] (Map.set [] r.wait k (fitting _ (Map.get [] r.wait k)).2) j = _
    rw [hfit, Map.get_set]
    split
    next hj => rw [hj, hw]
    next => rfl
  · show Map.get [] (Map.upd [] (Map.upd [] r.inq k _) k (fun q => q ++ (fitting _ (Map.get [] r.wait k)).1.map RBuf.fresh)) j = _
    rw [hfit, Map.get_upd, Map.get_upd_self, Map.get_upd, hq]
    split
    next => exact List.append_nil _
    next => rfl

end

theorem Router.popIn_eq (r : Router) (k : Nat) : ∃ q w, r.popIn k = { r with inq := q, wait := w } := ⟨_, _, rfl⟩

theorem State.setRouter_setRouter (s : State) (c : Nat) (x y : Router) : (s.setRouter c x).setRouter c y = s.setRouter c y :=
  congrArg (fun m => { s with routers := m }) (Map.set_set _ _ _ _ _)

/-- Of two changes of a router in a row, the second acts on what the first has made. -/
theorem State.updRouter_updRouter (s : State) (c : Nat) (f g : Router → Router) :
    (s.updRouter c f).updRouter c g = s.setRouter c (g (f (s.router c))) := by
  rw [State.updRouter, State.router_updRouter]
  exact s.setRouter_setRouter c _ _

/-! ### The way of a message (R249, R253) -/

theorem State.takeWay_outs (s : State) (c k : Nat) (m : Msg) {mask : Nat} (h : mask ≠ 0) :
    s.takeWay c k (.outs m mask false) = s.setRouter c
      { (s.router c).setIn k { msg := m, routed := true, outs := mask } with detoured := satAdd (s.router c).detoured 0 32 } :=
  if_neg h

/-- A router after it has absorbed and counted the head of an input. -/
def Router.absorbs (r : Router) (k : Nat) : Router := { r.popIn k with absorbed := satAdd r.absorbed 1 32 }

theorem Router.absorbs_eq (r : Router) (k : Nat) :
    r.absorbs k = { r with inq := (r.absorbs k).inq, wait := (r.absorbs k).wait, absorbed := (r.absorbs k).absorbed } := by
  obtain ⟨q, w, h⟩ := r.popIn_eq k
  rw [Router.absorbs, h]

/-- An absorbed message leaves its queue and is counted; the source core of a DATA or CONNECT message is sent one CLOSE. -/
theorem State.takeWay_absorb (s : State) (c k : Nat) (m : Msg) :
    s.takeWay c k (.absorb m) = if (m.typ = MT.data ∨ m.typ = MT.connect) ∧ m.sy < 448 then
      (s.setRouter c ((s.router c).absorbs k)).arrive c 4 (closeMsgTo m.forme c m.src m.sport true)
    else s.setRouter c ((s.router c).absorbs k) := by
  have hcount : (s.updRouter c (·.popIn k)).updRouter c (fun r => { r with absorbed := satAdd r.absorbed 1 32 }) =
      s.setRouter c ((s.router c).absorbs k) := s.updRouter_updRouter c _ _
  rw [State.takeWay, State.absorb]
  simp only [hcount, Msg.fromCore, decide_eq_true_eq]

/-- Away from the core that a message makes for, X-then-Y routing names a direction of the fabric. -/
theorem xyDirection_of_ne {t c : Nat} (h : t ≠ c) : xyDirection t c =
    if coreX c < coreX t then 1 else if coreX t < coreX c then 3 else if coreY c < coreY t then 2 else 0 := by
  have hnorth (hwest : ¬ coreX c < coreX t) (heast : ¬ coreX t < coreX c) (hsouth : ¬ coreY c < coreY t) : coreY t < coreY c := by
    unfold coreX at hwest heast
    unfold coreY at hsouth ⊢
    omega
  unfold xyDirection
  split
  next => rfl
  next hwest =>
    split
    next => rfl
    next heast =>
      split
      next => rfl
      next hsouth => exact if_pos (hnorth hwest heast hsouth)

theorem State.onward_free {s : State} {c t : Nat} {m : Msg} (h : s.blockedDir m.forme c (xyDirection t c) = false) :
    s.onward c m t = .outs m (2 ^ xyDirection t c) false := by
  simp [State.onward, h]

theorem State.onward_blocked {s : State} {c t : Nat} {m : Msg} (h : s.blockedDir m.forme c (xyDirection t c) = true)
    (hd : (s.router c).detour.find? (fun e => detourFits e (xyDirection t c) t) = none) : s.onward c m t = .absorb m := by
  simp [State.onward, h, hd]

/-! ### The routing procedure (R249) -/

/-- A message that leaves its input with one of the router's drop counters advanced. -/
def State.dropped (s : State) (c k : Nat) (f : Router → Router) : State := s.updRouter c (fun r => f (r.popIn k))

theorem State.routeMsg_hopLimit (s : State) (c i k : Nat) {m : Msg} (h : 1022 ≤ m.hops) :
    s.routeMsg c i k m = s.dropped c k (fun r => { r with hopDrop := satAdd r.hopDrop 1 16 }) :=
  if_pos (Nat.succ_le_succ h)

/-- A message as the send port of its core turns it into one for a group (R261). -/
def Router.injected (r : Router) (c i : Nat) (m : Msg) : Msg :=
  match r.injectEntry m.sport with
  | some e =>
    if i = 4 ∧ m.typ = MT.data ∧ m.sx = coreX c ∧ m.sy = coreY c then { m with typ := MT.group, dkind := 1, dest := mcGroup e } else m
  | none => m

theorem Router.injected_eq_self {r : Router} {i : Nat} {m : Msg} (h : i < 4 ∨ i = 4 ∧ r.injectEntry m.sport = none) (c : Nat) :
    r.injected c i m = m := by
  unfold Router.injected
  obtain hi | ⟨-, hn⟩ := h
  · split
    · exact if_neg (fun h => absurd h.1 (Nat.ne_of_lt hi))
    · rfl
  · rw [hn]

/-- What becomes of a message that is within its hop limit and has no waypoint left to reach here (R249, R261-R265). -/
def State.passOn (s : State) (c i k : Nat) (m : Msg) : State :=
  if m.typ = MT.group then s.replicate c k m
  else match s.target m with
    | none => s.takeWay c k (.absorb m)
    | some t =>
      if t = c then s.takeWay c k (s.ejectWay m)
      else match (s.router c).reduceEntry m with
        | some e => s.merge c i k e m t
        | none => s.takeWay c k (s.onward c m t)

theorem State.routeMsg_within (s : State) (c i k : Nat) {m : Msg} (hh : m.hops < 1022) (hw : m.wp = none) :
    s.routeMsg c i k m = s.passOn c i k ((s.router c).injected c i { m with hops := m.hops + 1 }) := by
  have hlim : ¬ 1023 ≤ m.hops + 1 := by omega
  obtain ⟨⟩ := m
  subst hw
  exact if_neg hlim

/-- A message for a core that is neither copied nor merged leaves by the local port, or goes on. -/
theorem State.passOn_toCore {s : State} {c i : Nat} (k : Nat) {m : Msg} (hw : m.wp = none) (hd : m.dkind = 0) (ht : m.typ ≠ MT.group)
    (hr : (s.router c).reduceEntry m = none) :
    s.passOn c i k m = s.takeWay c k (if m.dest = c then .outs m 16 false else s.onward c m m.dest) := by
  have htarget : s.target m = some m.dest := by simp [State.target, hw, hd]
  have heject : s.ejectWay m = .outs m 16 false := if_pos hd
  unfold State.passOn
  simp only [ht, htarget, heject, hr, if_false]
  split <;> rfl

/-- A message for a core on its way: one hop more, and out by the local port or onward (R249). -/
theorem State.routeMsg_toCore {s : State} {c i : Nat} (k : Nat) {b m : Msg} (hm : m = { b with hops := b.hops + 1 })
    (hin : i < 4 ∨ i = 4 ∧ (s.router c).injectEntry b.sport = none) (hh : b.hops < 1022) (hw : b.wp = none) (hd : b.dkind = 0)
    (ht : b.typ ≠ MT.group) (hr : (s.router c).reduceEntry m = none) :
    s.routeMsg c i k b = s.takeWay c k (if m.dest = c then .outs m 16 false else s.onward c m m.dest) := by
  subst hm
  rw [s.routeMsg_within c i k hh hw, Router.injected_eq_self (m := { b with hops := b.hops + 1 }) hin c]
  exact State.passOn_toCore k hw hd ht hr

/-! ### A received message (R245-R249, R255) -/

/-- A router that works has at the head of an input a message that it has not routed, whose codewords came in sound, and nothing stands
outside that input. -/
structure State.Receives (s : State) (c k : Nat) (b : RBuf) (rest : List RBuf) : Prop where
  works : s.routes c = true
  head : Map.get [] (s.router c).inq k = b :: rest
  alone : Map.get [] (s.router c).wait k = []
  fresh : b.routed = false
  sound : soundSlots b.msg.slots

theorem payloadDetections_sound {l : List Cw} (h : ∀ w ∈ l, w = .clean ∨ w = .poison) : payloadDetections l = [] := by
  refine List.filterMap_eq_nil_iff.2 (fun w hw => ?_)
  obtain rfl | rfl := h w hw <;> rfl

/-- A message whose header had wrong parity has been counted and taken off its input (R246, R247). -/
def State.headerGone (s : State) (c i k : Nat) : State := (s.linkDetect c i .parity).updRouter c (·.popIn k)

section
variable {s : State} {c i v : Nat} {b : RBuf} {rest : List RBuf} (h : s.Receives c (i * 2 + v) b rest)
include h

/-- A message that comes in as it was sent: dropped for its forme, dropped for a reserved field, or routed. -/
theorem exec_route_quiet : exec (.route c i v LinkObs.quiet) s = .next (
    if s.entersCluster c i = true ∧ s.formeOf c ≠ some b.msg.forme then
      s.dropped c (i * 2 + v) (fun r => { r with chaseDrop := satAdd r.chaseDrop 1 32 })
    else if b.msg.reserved = true then s.dropped c (i * 2 + v) (fun r => { r with typeDrop := satAdd r.typeDrop 1 16 })
    else s.routeMsg c i (i * 2 + v) b.msg) := by
  have hm : (if i < 4 then b.msg.flip LinkObs.quiet.flips else b.msg) = b.msg := ite_self b.msg
  show execRoute c i v LinkObs.quiet s = _
  unfold execRoute
  simp only [h.works, h.head, h.fresh, hm, payloadDetections_sound h.sound]
  rfl

theorem exec_route_chaseDrop (ho : s.entersCluster c i = true ∧ s.formeOf c ≠ some b.msg.forme) : exec (.route c i v LinkObs.quiet) s =
    .next (s.dropped c (i * 2 + v) (fun r => { r with chaseDrop := satAdd r.chaseDrop 1 32 })) := by
  rw [exec_route_quiet h, if_pos ho]

section
variable (ho : ¬ (s.entersCluster c i = true ∧ s.formeOf c ≠ some b.msg.forme))
include ho

theorem exec_route_typeDrop (hres : b.msg.reserved = true) : exec (.route c i v LinkObs.quiet) s =
    .next (s.dropped c (i * 2 + v) (fun r => { r with typeDrop := satAdd r.typeDrop 1 16 })) := by
  rw [exec_route_quiet h, if_neg ho, if_pos hres]

theorem exec_route_routeMsg (hres : b.msg.reserved = false) :
    exec (.route c i v LinkObs.quiet) s = .next (s.routeMsg c i (i * 2 + v) b.msg) := by
  rw [exec_route_quiet h, if_neg ho, hres]
  rfl

theorem exec_route_hopDrop (hres : b.msg.reserved = false) (hh : 1022 ≤ b.msg.hops) : exec (.route c i v LinkObs.quiet) s =
    .next (s.dropped c (i * 2 + v) (fun r => { r with hopDrop := satAdd r.hopDrop 1 16 })) := by
  rw [exec_route_routeMsg h ho hres, s.routeMsg_hopLimit c i _ hh]

end

/-- A header with wrong parity counts, its message is gone, and a fault follows. -/
theorem exec_route_headerParity : exec (.route c i v { LinkObs.quiet with headerParity := true }) s =
    .next ((s.headerGone c i (i * 2 + v)).headerFault c i) := by
  have hm : (if i < 4 then b.msg.flip LinkObs.quiet.flips else b.msg) = b.msg := ite_self b.msg
  show execRoute c i v { LinkObs.quiet with headerParity := true } s = _
  unfold execRoute
  simp only [h.works, h.head, h.fresh, hm, payloadDetections_sound h.sound]
  rfl

end

/-! ### A detection on a link (R246-R248) -/

/-- From `s` to `t`, records and dead links have been noted, and routers have counted; CONTAINMENT_DEFAULT stands. -/
def State.Noted (s t : State) : Prop :=
  t = { s with routers := t.routers, hellbox := t.hellbox, mapGen := t.mapGen, regs := t.regs, mgmt := t.mgmt, free := t.free } ∧
    t.regs.resetDefault = s.regs.resetDefault

theorem State.Noted.refl (s : State) : s.Noted s := ⟨rfl, rfl⟩

theorem State.Noted.trans {s t u : State} (h : s.Noted t) (k : t.Noted u) : s.Noted u :=
  ⟨k.1.trans (by rw [h.1]), k.2.trans h.2⟩

section
variable {s t : State} (h : s.Noted t)
include h

theorem State.Noted.formes : t.formes = s.formes := by rw [h.1]
theorem State.Noted.fields : t.fields = s.fields := by rw [h.1]
theorem State.Noted.clusters : t.clusters = s.clusters := by rw [h.1]
theorem State.Noted.forme (f : Nat) : t.forme f = s.forme f := by rw [State.forme, h.formes, ← State.forme]
theorem State.Noted.formeOf (c : Nat) : t.formeOf c = s.formeOf c := by
  rw [State.formeOf, State.cluster, h.clusters, ← State.cluster, ← State.formeOf]
theorem State.Noted.resetsFor (f : Option Nat) : t.resetsFor f = s.resetsFor f := by
  cases f with
  | none => exact h.2
  | some n => exact congrArg Forme.resets (h.forme n)
theorem State.Noted.noPending (hn : s.NoPending) : t.NoPending := by
  unfold State.NoPending
  rw [h.fields]
  exact hn

end

theorem State.chainWith_noted (s : State) (sends : Bool) (b : Bytes) : s.Noted (s.chainWith sends b) := by
  obtain ⟨m, -, heq | heq⟩ := s.chainWith_chained sends b <;> rw [heq] <;> exact ⟨rfl, rfl⟩

theorem State.post_noted (s : State) (r : RecSpec) : s.Noted (s.post r) := by
  have hdraw : s.Noted s.draw.2 := ⟨rfl, rfl⟩
  unfold State.post
  simp only []
  split
  · exact hdraw.trans (State.chainWith_noted _ _ _)
  · exact ⟨rfl, rfl⟩

theorem State.post_router (s : State) (r : RecSpec) (c : Nat) : (s.post r).router c = s.router c :=
  s.post_keeps (fun t => t.router c) (fun _ _ _ _ => rfl) r

theorem State.appendHb_noted (s : State) (e : HbEntry) (f : Option Nat) (k u : Nat) : s.Noted (s.appendHb e f k u) :=
  State.Noted.trans (t := { s with hellbox := _, mapGen := s.mapGen + 1 }) ⟨rfl, rfl⟩ (State.post_noted _ _)

theorem State.appendHb_router (s : State) (e : HbEntry) (f : Option Nat) (k u c : Nat) : (s.appendHb e f k u).router c = s.router c :=
  State.post_router _ _ c

/-- A detection counts at the router, and may post its record and name the link dead. -/
theorem State.linkDetect_link (s : State) {c i : Nat} (hi : i < 4) (d : Detection) : ∃ (y : Router) (r : RecSpec) (noted worn : Bool),
    (s.linkDetect c i d =
      let t := if noted = true then (s.setRouter c y).post r else s.setRouter c y
      if worn = true then t.appendHb (t.deadLink c i 5) (t.formeOf c) 7 (linkUnit c i) else t) ∧
    y.inq = (s.router c).inq ∧ y.wait = (s.router c).wait ∧ y.hpar = (s.router c).hpar.bump i (b2n (d == .parity)) 8 :=
  ⟨_, _, _, _, if_neg (Nat.not_le.2 hi), rfl, rfl, rfl⟩

/-- What a detection leaves of its router's queues, and of the parity errors of its link. -/
structure State.Detects (s : State) (c i : Nat) (d : Detection) (t : State) : Prop where
  noted : s.Noted t
  inq : (t.router c).inq = (s.router c).inq
  wait : (t.router c).wait = (s.router c).wait
  hpar : i < 4 → (t.router c).hpar = (s.router c).hpar.bump i (b2n (d == .parity)) 8

theorem State.linkDetect_detects (s : State) (c i : Nat) (d : Detection) : s.Detects c i d (s.linkDetect c i d) := by
  by_cases hi : i < 4
  · obtain ⟨y, r, noted, worn, heq, hinq, hwait, hpar⟩ := s.linkDetect_link (c := c) hi d
    have hself : s.Detects c i d (s.setRouter c y) := by
      refine ⟨⟨rfl, rfl⟩, ?_, ?_, fun _ => ?_⟩ <;> rw [State.router_setRouter] <;> assumption
    have hkeeps {t u : State} (ht : s.Detects c i d t) (hn : t.Noted u) (hr : u.router c = t.router c) : s.Detects c i d u :=
      ⟨ht.noted.trans hn, hr ▸ ht.inq, hr ▸ ht.wait, fun h => hr ▸ ht.hpar h⟩
    have hpost : s.Detects c i d (if noted = true then (s.setRouter c y).post r else s.setRouter c y) := by
      split
      · exact hkeeps hself (State.post_noted _ r) (State.post_router _ r c)
      · exact hself
    rw [heq]
    simp only []
    split
    · exact hkeeps hpost (State.appendHb_noted _ _ _ _ _) (State.appendHb_router _ _ _ _ _ c)
    · exact hpost
  · rw [State.linkDetect, if_pos (Nat.not_lt.1 hi)]
    exact ⟨State.Noted.refl s, rfl, rfl, fun h => absurd h hi⟩

/-! ### The fault of a forme (R280, R281) -/

theorem State.closeFingers_formes (s : State) (r q : Nat) (f : Option Nat) (l : Nat) (cut : Bool) :
    (s.closeFingers r q f l cut).formes = s.formes := by rw [s.closeFingers_recorded r q f l cut]

theorem State.finishParts_formes (s : State) (r : Nat) (c : Cmd) (cut : Bool) : (s.finishParts r c cut).formes = s.formes := by
  unfold State.finishParts
  split
  · rw [(State.finish_ends _ _ _ _).formes, State.updRing_formes]
    split
    · exact s.closeFingers_formes _ _ _ _ _
    · rfl
  · rfl

theorem State.endCommands_formes (s : State) (f : Nat) (k : Compl) : (s.endCommands f k).formes = s.formes := by
  refine State.forAll_keeps State.formes _ (fun s c => ?_) s
  split
  · exact (s.finish_ends f c k).formes
  · exact State.finishParts_formes _ _ _ _

theorem State.enterFaulted_forme (s : State) (f : Nat) (x : FaultSpec) : ((s.enterFaulted f x).forme f).state = 5 ∧
    ((s.enterFaulted f x).forme f).status = x.status ∧ ((s.enterFaulted f x).forme f).faultClass = x.cls := by
  have hforme (t : State) (k : Compl) : (t.endCommands f k).forme f = t.forme f := by
    rw [State.forme, t.endCommands_formes, ← State.forme]
  unfold State.enterFaulted
  rw [hforme, State.forme_updForme]
  exact ⟨rfl, rfl, rfl⟩

/-- A RUNNING forme that faults is FAULTED, with the status and the class of its fault. -/
theorem State.faultForme_running {s : State} (hn : s.NoPending) {f : Nat} (hs : (s.forme f).state = 3) (x : FaultSpec) :
    ((s.faultForme f x).forme f).state = 5 ∧ ((s.faultForme f x).forme f).status = x.status ∧
    ((s.faultForme f x).forme f).faultClass = x.cls := by
  have hq : s.faultForme f x = s.faultOnly f x :=
    State.settleDark_quiet _ (by unfold State.NoPending; rw [(s.faultOnly_books f x).fields]; exact hn)
  have ho : s.faultOnly f x = State.enterFaulted (s.post _) f x := (if_pos (.inl hs)).trans (if_pos hs)
  rw [hq, ho]
  exact State.enterFaulted_forme _ f x

/-! ### A header with wrong parity (R247) -/

theorem State.Books.router {s t : State} (h : s.Books t) (c : Nat) : t.router c = s.router c := by
  rw [h]
  rfl

theorem State.headerFault_books {s : State} (hn : s.NoPending) (c i : Nat) : s.Books (s.headerFault c i) := by
  unfold State.headerFault
  simp only []
  split
  · exact s.noteUncorrected_books _ _ _ _ _ _
  · split
    · exact State.Books.rfl' s
    · exact State.faultForme_books hn _ _

/-- Under RESET_DEVICE the device waits to reset. -/
theorem State.headerFault_resets {s : State} {c : Nat} (h : s.resetsFor (s.formeOf c) = true) (i : Nat) :
    (s.headerFault c i).mgmt.resetWait = true := by
  unfold State.headerFault State.noteUncorrected
  simp only [h, if_true]

/-- Under POISON the RUNNING forme of the cluster faults with LINK_DETECT. -/
theorem State.headerFault_faults {s : State} (hn : s.NoPending) {c f : Nat} (hf : s.formeOf c = some f) (hr : (s.forme f).resets = false)
    (hs : (s.forme f).state = 3) (i : Nat) : ((s.headerFault c i).forme f).state = 5 ∧
    ((s.headerFault c i).forme f).status = Config.faultCode ∧ ((s.headerFault c i).forme f).faultClass = Config.clsLinkDetect := by
  have hp : s.resetsFor (some f) = false := hr
  unfold State.headerFault
  simp only [hf, hp, Bool.false_eq_true, if_false]
  exact State.faultForme_running hn hs _

theorem State.headerGone_noted (s : State) (c i k : Nat) : s.Noted (s.headerGone c i k) :=
  (s.linkDetect_detects c i .parity).noted.trans ⟨rfl, rfl⟩

theorem State.headerGone_inq {s : State} {c k : Nat} {b : RBuf} {rest : List RBuf} (h : s.Receives c k b rest) (i : Nat) :
    Map.get [] ((s.headerGone c i k).router c).inq k = rest := by
  have hd := s.linkDetect_detects c i .parity
  obtain ⟨-, hinq⟩ := Router.popIn_inputIs (r := (s.linkDetect c i .parity).router c) (by rw [hd.inq]; exact h.head)
    (by rw [hd.wait]; exact h.alone)
  rw [State.headerGone, State.router_updRouter, hinq, if_pos rfl]

theorem State.headerGone_hpar (s : State) (c : Nat) {i : Nat} (hi : i < 4) (k : Nat) :
    Map.get 0 ((s.headerGone c i k).router c).hpar i = min (Map.get 0 (s.router c).hpar i + 1) 0xFF := by
  rw [State.headerGone, State.router_updRouter]
  show Map.get 0 ((s.linkDetect c i .parity).router c).hpar i = _
  rw [(s.linkDetect_detects c i .parity).hpar hi]
  exact Map.get_upd_self _ _ _ _

/-! ### The statement -/

/-- Settles O21: a message for a core takes the way of `State.takeWay`, the first reason that holds drops any other, and after a header
with wrong parity only records and the fault of the forme follow. -/
theorem routing : Obligations.Routing := by
  unfold Obligations.Routing
  refine ⟨?_, ?_⟩
  · intro s c i v b rest r m hr hq hw hfresh hin hforme hres hh hwp hd ht hreduce hsound queued exe d
    have hroute : exe = .next (s.takeWay c (i * 2 + v) (if m.dest = c then .outs m 16 false else s.onward c m m.dest)) := by
      rw [← State.routeMsg_toCore _ rfl hin hh hwp hd ht hreduce]
      exact exec_route_routeMsg ⟨hr, hq, hw, hfresh, hsound⟩ (fun h => h.2 hforme) hres
    have hout (w : Way) {t : State} (hw : (if m.dest = c then .outs m 16 false else s.onward c m m.dest) = w)
        (ht : s.takeWay c (i * 2 + v) w = t) : exe = .next t := by rw [hroute, hw, ht]
    have hdir (hc : m.dest ≠ c) : xyDirection m.dest c = d := xyDirection_of_ne hc
    refine ⟨fun hc => ⟨_, hout _ (if_pos hc) (s.takeWay_outs c _ m (by decide)), rfl, Router.setIn_inputIs hq _⟩,
      fun hc hfree => ?_, fun hc hblocked hdetour => ?_⟩
    · rw [← hdir hc] at hfree ⊢
      exact ⟨_, hout _ ((if_neg hc).trans (State.onward_free hfree)) (s.takeWay_outs c _ m (Nat.ne_of_gt (Nat.two_pow_pos _))), rfl,
        Router.setIn_inputIs hq _⟩
    · rw [← hdir hc] at hblocked hdetour
      exact ⟨r.absorbs (i * 2 + v), ⟨r.absorbs_eq _, Router.popIn_inputIs hq hw⟩, rfl,
        hout _ ((if_neg hc).trans (State.onward_blocked hblocked hdetour)) (s.takeWay_absorb c _ m)⟩
  · intro s c i v b rest r hr hq hw hfresh hi hsound gone exe other
    have hrec : s.Receives c (i * 2 + v) b rest := ⟨hr, hq, hw, hfresh, hsound⟩
    have hgone := Router.popIn_inputIs hq hw
    refine ⟨fun ho => ⟨_, exec_route_chaseDrop hrec ho, ⟨rfl, hgone⟩, rfl, rfl, rfl⟩,
      fun ho hres => ⟨_, exec_route_typeDrop hrec ho hres, ⟨rfl, hgone⟩, rfl, rfl, rfl⟩,
      fun ho hres hh => ⟨_, exec_route_hopDrop hrec ho hres hh, ⟨rfl, hgone⟩, rfl, rfl, rfl⟩,
      fun hn => ⟨_, exec_route_headerParity hrec, ?_⟩⟩
    have hnoted := s.headerGone_noted c i (i * 2 + v)
    have hrouter := (State.headerFault_books (hnoted.noPending hn) c i).router c
    rw [hrouter]
    refine ⟨State.headerGone_inq hrec i, fun hi => s.headerGone_hpar c hi _, fun hreset => State.headerFault_resets ?_ i,
      fun f hf hpoison hrun => State.headerFault_faults (hnoted.noPending hn) ((hnoted.formeOf c).trans hf) ?_ ?_ i⟩
    · rw [hnoted.resetsFor, hnoted.formeOf]
      exact hreset
    · rw [hnoted.forme]
      exact hpoison
    · rw [hnoted.forme]
      exact hrun

end Sys2Proof.Machine
end

section
/-! PROOFS. Router outputs, the window of the link scores and the merge buffer (R237, R239, R240, R248, R253, R264, R309, R329): what an
output does with the message that its rotation names, when a held message goes on, and the statement about them. -/

namespace Sys2Proof.Machine

/-! ### An output (R237, R239, R240, R253) -/

/-- The state after an output has sent a message: by the local port as the copy that the core takes, at the edge to a unit, and else to
the neighbour. -/
def State.sent (s : State) (c d v i : Nat) (b : RBuf) : State :=
  let t := s.updRouter c (·.sentCopy i d v b)
  if d = 4 then t.updRouter c (fun r => { r with ejq := Map.upd [] r.ejq v (fun q => q ++ [s.localCopy c b.msg]) })
  else if d = 5 then t.toUnit b.msg
  else match s.neighbour c d with
    | some n => t.arrive n (opposite d) b.msg
    | none => s

section
variable {s : State} {c d v i : Nat} {b : RBuf} (hr : s.routes c = true) (hp : s.outputPick c d v = some (i, b))
include hr hp

/-- A message whose direction has been cut off since it was routed is absorbed. -/
theorem exec_routerForward_cutOff (hc : s.cutOff b.msg.forme c d = true) :
    exec (.routerForward c d v) s = .next ((s.updRouter c (·.sentCopy i d v b)).absorb c b.msg) := by
  show execRouterForward c d v s = _
  unfold execRouterForward
  simp only [hr, hp, hc, if_true]

/-- Without credit, or behind a message on VC1, nothing moves. -/
theorem exec_routerForward_waits (hc : s.cutOff b.msg.forme c d = false)
    (hw : s.outputRoom c d v b.msg = false ∨ ¬ (v = 0 → s.canSend c d 1 = false)) : exec (.routerForward c d v) s = .next s := by
  have hstop : ¬ s.outputRoom c d v b.msg = true ∨ v = 0 ∧ s.canSend c d 1 = true :=
    hw.imp (fun h => by simp [h]) (fun h => by simpa using h)
  show execRouterForward c d v s = _
  unfold execRouterForward
  simp only [hr, hp, hc, hstop, if_true, Bool.false_eq_true, if_false]

/-- With credit, the whole message leaves. -/
theorem exec_routerForward_sends (hroom : s.outputRoom c d v b.msg = true) (hfirst : v = 0 → s.canSend c d 1 = false)
    (hc : s.cutOff b.msg.forme c d = false) : exec (.routerForward c d v) s = .next (s.sent c d v i b) := by
  have hgo : ¬ (¬ s.outputRoom c d v b.msg = true ∨ v = 0 ∧ s.canSend c d 1 = true) := by
    rintro (h | ⟨hv, h⟩)
    · exact h hroom
    · rw [hfirst hv] at h
      exact Bool.false_ne_true h
  show execRouterForward c d v s = _
  unfold execRouterForward
  simp only [hr, hp, hc, hgo, Bool.false_eq_true, if_false]
  rfl

end

theorem State.cutOff_link {s : State} {d : Nat} (hd : d < 4) (f c : Nat) : s.cutOff f c d = s.blockedDir f c d := by
  simp [State.cutOff, hd]

theorem State.cutOff_beyond {d : Nat} (hd : 4 ≤ d) (s : State) (f c : Nat) : s.cutOff f c d = false := by
  simp [State.cutOff, Nat.not_lt.2 hd]

/-- A station has credit for 32 requests on VC0 and 8 on VC1. -/
theorem State.outputRoom_station (s : State) (c v : Nat) {m : Msg} (hm : m.dkind = 2) : s.outputRoom c 5 v m = true ↔
    if v = 0 then (s.station m.dest).q0.length < 32 else (s.station m.dest).q1.length < 8 := by
  have hroom : s.outputRoom c 5 v m =
      if v = 0 then decide ((s.station m.dest).q0.length < 32) else decide ((s.station m.dest).q1.length < 8) := if_pos hm
  rw [hroom]
  split <;> exact decide_eq_true_iff

/-! ### The message that leaves (R237, R239) -/

theorem State.sent_link {s : State} {c d n : Nat} (hd : d < 4) (hn : s.neighbour c d = some n) (v i : Nat) (b : RBuf) :
    s.sent c d v i b = (s.updRouter c (·.sentCopy i d v b)).arrive n (opposite d) b.msg := by
  have h4 : d ≠ 4 := by omega
  have h5 : d ≠ 5 := by omega
  simp only [State.sent, h4, h5, if_false, hn]

/-- A router after its local port has taken a message that it sends to its own core alone. -/
def Router.ejected (r : Router) (i v : Nat) (b : RBuf) : Router :=
  { r.sentCopy i 4 v b with ejq := Map.upd [] (r.sentCopy i 4 v b).ejq v (fun q => q ++ [b.msg]) }

theorem State.sent_local {b : RBuf} (hb : b.msg.typ ≠ MT.group) (s : State) (c v i : Nat) :
    s.sent c 4 v i b = s.setRouter c ((s.router c).ejected i v b) := by
  have hcopy : s.localCopy c b.msg = b.msg := if_neg hb
  rw [State.sent, if_pos rfl, hcopy]
  exact s.updRouter_updRouter c _ _

theorem Router.sentCopy_ejq (r : Router) (i d v : Nat) (b : RBuf) : (r.sentCopy i d v b).ejq = r.ejq := by
  unfold Router.sentCopy
  simp only []
  split <;> rfl

theorem Router.sentCopy_rot (r : Router) (i d v : Nat) (b : RBuf) :
    (r.sentCopy i d v b).rot = Map.set 0 r.rot (d * 2 + v) ((i + 1) % 6) := by
  unfold Router.sentCopy
  simp only []
  split <;> rfl

/-- A message whose last copy has been sent is gone from its input. -/
theorem Router.sentCopy_last {r : Router} {i v : Nat} {b : RBuf} {rest : List RBuf} (hq : Map.get [] r.inq (i * 2 + v) = b :: rest)
    (hw : Map.get [] r.wait (i * 2 + v) = []) {d : Nat} (hb : clearBit b.outs d = 0) :
    Map.get [] (r.sentCopy i d v b).inq (i * 2 + v) = rest := by
  obtain ⟨-, hinq⟩ := Router.popIn_inputIs (r := { r with rot := Map.set 0 r.rot (d * 2 + v) ((i + 1) % 6) }) hq hw
  rw [Router.sentCopy, if_pos hb, hinq, if_pos rfl]

theorem State.outputPick_head {s : State} {c d v i : Nat} {b : RBuf} (h : s.outputPick c d v = some (i, b)) :
    ∃ rest, Map.get [] (s.router c).inq (i * 2 + v) = b :: rest := by
  unfold State.outputPick at h
  split at h
  · cases h
  · split at h
    next b' rest hq =>
      cases h
      exact ⟨rest, hq⟩
    next => cases h

/-! ### The merge buffer (R264) -/

/-- The free way of a message does not depend on what its router holds. -/
theorem State.onward_updRouter {s : State} {c t : Nat} {m : Msg} (ht : s.target m = some t)
    (hfree : s.blockedDir m.forme c (xyDirection t c) = false) (g : Router → Router) :
    ((s.updRouter c g).target m).map ((s.updRouter c g).onward c m) = some (.outs m (2 ^ xyDirection t c) false) := by
  rw [show (s.updRouter c g).target m = some t from ht, Option.map_some, State.onward_free (s := s.updRouter c g) hfree]

/-- A router after a held message has gone on into the merge buffer's input, for one output. -/
def Router.releases (r : Router) (i : Nat) (m : Msg) (mask : Nat) : Router :=
  { r with
    held := r.held.filter (fun g => g.entry != i)
    inq := Map.upd [] r.inq 10 (fun q => q ++ [{ msg := m, routed := true, outs := mask }])
    detoured := satAdd r.detoured 0 32 }

theorem Router.releases_held (r : Router) (i : Nat) (m : Msg) (mask : Nat) : ∀ g ∈ (r.releases i m mask).held, g.entry ≠ i := by
  intro g hg
  simpa using (List.mem_filter.1 hg).2

theorem Router.releases_inq (r : Router) (i : Nat) (m : Msg) (mask : Nat) :
    Map.get [] (r.releases i m mask).inq 10 = Map.get [] r.inq 10 ++ [{ msg := m, routed := true, outs := mask }] :=
  Map.get_upd_self [] r.inq 10 (fun q => q ++ [({ msg := m, routed := true, outs := mask } : RBuf)])

section
variable {s : State} {c i : Nat} {expired : Bool} {h : Held} {e : BitVec 64} (hr : s.routes c = true)
  (hh : (s.router c).held.find? (fun h => h.entry == i) = some h) (he : (s.router c).reduce[i]? = some e)
include hr hh he

theorem exec_reduceForward_waits (hw : ¬ (expired = true ∨ h.arrived &&& reIns e = reIns e)) :
    exec (.reduceForward c i expired) s = .next s := by
  show execReduceForward c i expired s = _
  unfold execReduceForward
  simp only [hr, hh, he, hw, if_false]

/-- A held message whose way is free goes on in its direction. -/
theorem exec_reduceForward_goes (hg : expired = true ∨ h.arrived &&& reIns e = reIns e) {t : Nat} (ht : s.target h.msg = some t)
    (hfree : s.blockedDir h.msg.forme c (xyDirection t c) = false) : exec (.reduceForward c i expired) s =
      .next (s.setRouter c ((s.router c).releases i h.msg (2 ^ xyDirection t c))) := by
  show execReduceForward c i expired s = _
  unfold execReduceForward
  simp only [hr, hh, he, hg, if_true, State.onward_updRouter ht hfree]
  exact congrArg _ (s.updRouter_updRouter c _ _)

end

/-! ### The statement -/

/-- Settles O22: an output sends, waits or absorbs as its credit and its direction stand, a window's end clears the scores, and the merge
buffer releases a message that is complete or late. -/
theorem routerOutputs : Obligations.RouterOutputs := by
  unfold Obligations.RouterOutputs
  refine ⟨?_, fun s c => rfl, ?_⟩
  · intro s c d v i b hr hp cleared exe vc1Waits
    have hbeyond {d : Nat} (hd : 4 ≤ d) : s.cutOff b.msg.forme c d = false := State.cutOff_beyond hd s _ c
    refine ⟨fun n hd hfree hroom hfirst hn => ?_, fun hd hej hw hfirst hty => ?_, fun hd hdk hfirst => ?_, fun hd hroom hfirst => ?_,
      fun hd hblocked => ?_, exec_routerForward_waits hr hp⟩
    · rw [← State.sent_link hd hn v i b]
      exact exec_routerForward_sends hr hp hroom hfirst ((State.cutOff_link hd _ _).trans hfree)
    · subst hd
      have hroom : s.outputRoom c 4 v b.msg = true := by simp [State.outputRoom, hej]
      obtain ⟨rest, hq⟩ := State.outputPick_head hp
      refine ⟨(s.router c).ejected i v b, ?_, ?_, ?_, fun hb => ?_⟩
      · rw [← State.sent_local hty s c v i]
        exact exec_routerForward_sends hr hp hroom hfirst (hbeyond (by decide))
      · rw [Router.ejected, Router.sentCopy_ejq, Map.get_upd_self, hej]
        rfl
      · show Map.get 0 ((s.router c).sentCopy i 4 v b).rot (8 + v) = _
        rw [Router.sentCopy_rot, Map.get_set_self]
      · rw [hq]
        exact Router.sentCopy_last hq hw (by rw [hb]; decide)
    · subst hd
      have hunit := s.outputRoom_station c v hdk
      exact ⟨fun hroom => exec_routerForward_sends hr hp (hunit.2 hroom) hfirst (hbeyond (by decide)),
        fun hroom => exec_routerForward_waits hr hp (hbeyond (by decide)) (.inl (Bool.eq_false_iff.2 (fun h => hroom (hunit.1 h))))⟩
    · subst hd
      exact exec_routerForward_sends hr hp hroom hfirst (hbeyond (by decide))
    · exact exec_routerForward_cutOff hr hp ((State.cutOff_link hd _ _).trans hblocked)
  · intro s c i t expired h e hr hh he ht hfree
    exact ⟨fun hg => ⟨_, exec_reduceForward_goes hr hh he hg ht hfree, Router.releases_held _ i _ _, Router.releases_inq _ i _ _⟩,
      fun hx hw => exec_reduceForward_waits hr hh he (by simp [hx, reIns, hw])⟩

end Sys2Proof.Machine
end
